-- ==== Sys2Proof/Word.lean ====
section
/-! DEFINITION. The two scalar types of the spec: a byte and a 32-bit word (spec 00_scope.md R15). A bus offset is
20 bits (10_state.md R44: addr[19:0]). -/

namespace Sys2Proof

/-- A byte, an integer 0..255, bit 0 least significant (R15). -/
abbrev Byte := BitVec 8

/-- A word, an integer 0..2^32-1 (R15); also one element of a text buffer (R37). -/
abbrev Word := BitVec 32

/-- A byte offset in CORE's window of 2^20 offsets (R60, R44). -/
abbrev Offset := BitVec 20

end Sys2Proof
end

