-- ==== Sys2Proof/Syntax.lean ====
section
/-! DEFINITION. The 21 commands of CORE (spec 30_encoding.md R94, opcode_table.json), one constructor a row. A command
is the value of one 32-bit word written to `CMD` (R90); every operand but `KSZ` is implicit (R93). -/

namespace Sys2Proof

/-- A command. The constructors stand in the order of the opcode table. -/
inductive Instr where
  /-- `NOP` (60_exceptions.md R284). -/
  | nop
  /-- `AES.KEYEXP` with its operand field `KSZ`, bits 9:8 (R92, R93; 40_aes_key_expansion.md R117). -/
  | aesKeyexp (ksz : BitVec 2)
  /-- `AES.CIPHER` (41_aes_cipher.md R142). -/
  | aesCipher
  /-- `AES.INVCIPHER` (42_aes_inv_cipher.md R155). -/
  | aesInvcipher
  /-- `MD5.INIT` (43_md5.md R181). -/
  | md5Init
  /-- `MD5.BLOCK` (43_md5.md R182). -/
  | md5Block
  /-- `MD5.DIGEST` (43_md5.md R183). -/
  | md5Digest
  /-- `CTR.INC` (44_ctr.md R191). -/
  | ctrInc
  /-- `CTR.XFORM` (44_ctr.md R193). -/
  | ctrXform
  /-- `UTF8.ENC` (45_codecs.md R203). -/
  | utf8Enc
  /-- `UTF8.DEC` (45_codecs.md R206). -/
  | utf8Dec
  /-- `B64.ENC` (45_codecs.md R212). -/
  | b64Enc
  /-- `B64.DEC` (45_codecs.md R215). -/
  | b64Dec
  /-- `HEX.ENC` (45_codecs.md R219). -/
  | hexEnc
  /-- `PW.CONSTRUCT` (46_facade.md R236). -/
  | pwConstruct
  /-- `PW.ENCRYPT` (46_facade.md R238). -/
  | pwEncrypt
  /-- `PW.DECRYPT` (46_facade.md R240). -/
  | pwDecrypt
  /-- `PW.GETDIGEST` (46_facade.md R242). -/
  | pwGetdigest
  /-- `PW.GETPASSWORD` (46_facade.md R243). -/
  | pwGetpassword
  /-- `CLRERR` (60_exceptions.md R285). -/
  | clrerr
  /-- `SRESET` (70_reset_and_hazards.md R302). -/
  | sreset
  deriving DecidableEq, Repr

end Sys2Proof
end

