-- ==== Sys2Proof/WellFormed.lean ====
section
/-! DEFINITION. Which terms of `Instr` are commands: every one but `AES.KEYEXP` with the reserved key-size code 3
(spec 30_encoding.md R93). -/

namespace Sys2Proof

/-- The key-size code is one of the three legal ones; "`KSZ = 3` is reserved and makes the word illegal" (R93). -/
def kszLegal (ksz : BitVec 2) : Bool := ksz != 3#2

/-- A command that some word of R94 encodes. -/
def Instr.wf : Instr → Bool
  | .nop => true
  | .aesKeyexp ksz => kszLegal ksz
  | .aesCipher => true
  | .aesInvcipher => true
  | .md5Init => true
  | .md5Block => true
  | .md5Digest => true
  | .ctrInc => true
  | .ctrXform => true
  | .utf8Enc => true
  | .utf8Dec => true
  | .b64Enc => true
  | .b64Dec => true
  | .hexEnc => true
  | .pwConstruct => true
  | .pwEncrypt => true
  | .pwDecrypt => true
  | .pwGetdigest => true
  | .pwGetpassword => true
  | .clrerr => true
  | .sreset => true

end Sys2Proof
end

