-- ==== Sys2Proof/Decode.lean ====
section
/-! DEFINITION. The decoder of command words, total on all 2^32 words (spec 30_encoding.md R90 to R96), and after it the
encoder. Decoding depends on the word alone (R90). -/

namespace Sys2Proof

/-- Bits 7:0 of a command word, the opcode `OPC` (R91, R92). -/
def fieldOpc (c : Word) : Byte := c.extractLsb' 0 8

/-- Bits 9:8, the field `KSZ` of format K (R92). -/
def fieldKsz (c : Word) : BitVec 2 := c.extractLsb' 8 2

/-- Bits 31:8, zero in format Z (R91). -/
def fieldZeroZ (c : Word) : BitVec 24 := c.extractLsb' 8 24

/-- Bits 31:10, zero in format K (R92). -/
def fieldZeroK (c : Word) : BitVec 22 := c.extractLsb' 10 22

/-- The one opcode of format K (R92). -/
def opcKeyexp : Byte := 0x01#8

/-- The opcodes of format Z and the commands they select (R94). -/
def opcodesZ : List (Byte × Instr) :=
  [(0x00#8, .nop), (0x02#8, .aesCipher), (0x03#8, .aesInvcipher),
   (0x10#8, .md5Init), (0x11#8, .md5Block), (0x12#8, .md5Digest),
   (0x20#8, .ctrInc), (0x21#8, .ctrXform),
   (0x30#8, .utf8Enc), (0x31#8, .utf8Dec), (0x32#8, .b64Enc), (0x33#8, .b64Dec), (0x34#8, .hexEnc),
   (0x40#8, .pwConstruct), (0x41#8, .pwEncrypt), (0x42#8, .pwDecrypt), (0x43#8, .pwGetdigest),
   (0x44#8, .pwGetpassword), (0x7E#8, .clrerr), (0x7F#8, .sreset)]

/-- The command a word encodes, or none where the word is illegal (R90 to R95). -/
def decode (c : Word) : Option Instr :=
  if fieldOpc c = opcKeyexp then
    if fieldZeroK c = 0#22 ∧ kszLegal (fieldKsz c) = true then some (.aesKeyexp (fieldKsz c)) else none
  else if fieldZeroZ c = 0#24 then opcodesZ.lookup (fieldOpc c)
  else none

/-- The opcode of a command, bits 7:0 of its word (R94). -/
def opcode : Instr → Byte
  | .nop => 0x00#8
  | .aesKeyexp _ => 0x01#8
  | .aesCipher => 0x02#8
  | .aesInvcipher => 0x03#8
  | .md5Init => 0x10#8
  | .md5Block => 0x11#8
  | .md5Digest => 0x12#8
  | .ctrInc => 0x20#8
  | .ctrXform => 0x21#8
  | .utf8Enc => 0x30#8
  | .utf8Dec => 0x31#8
  | .b64Enc => 0x32#8
  | .b64Dec => 0x33#8
  | .hexEnc => 0x34#8
  | .pwConstruct => 0x40#8
  | .pwEncrypt => 0x41#8
  | .pwDecrypt => 0x42#8
  | .pwGetdigest => 0x43#8
  | .pwGetpassword => 0x44#8
  | .clrerr => 0x7E#8
  | .sreset => 0x7F#8

/-- The operand field of a command, bits 31:8 of its word: `KSZ` in bits 9:8 for format K (R92), zero for format Z
(R91). -/
def operandField : Instr → BitVec 24
  | .aesKeyexp ksz => 0#22 ++ ksz
  | .nop | .aesCipher | .aesInvcipher | .md5Init | .md5Block | .md5Digest | .ctrInc | .ctrXform
  | .utf8Enc | .utf8Dec | .b64Enc | .b64Dec | .hexEnc | .pwConstruct | .pwEncrypt | .pwDecrypt
  | .pwGetdigest | .pwGetpassword | .clrerr | .sreset => 0#24

/-- The word that encodes a command (R91, R92, R94). -/
def encode (i : Instr) : Word := operandField i ++ opcode i

/-- The 23 legal words with the commands they encode, as R94 prints them. -/
def legalWords : List (Word × Instr) :=
  [(0x00000000#32, .nop), (0x00000001#32, .aesKeyexp 0#2), (0x00000101#32, .aesKeyexp 1#2),
   (0x00000201#32, .aesKeyexp 2#2), (0x00000002#32, .aesCipher), (0x00000003#32, .aesInvcipher),
   (0x00000010#32, .md5Init), (0x00000011#32, .md5Block), (0x00000012#32, .md5Digest),
   (0x00000020#32, .ctrInc), (0x00000021#32, .ctrXform),
   (0x00000030#32, .utf8Enc), (0x00000031#32, .utf8Dec), (0x00000032#32, .b64Enc),
   (0x00000033#32, .b64Dec), (0x00000034#32, .hexEnc),
   (0x00000040#32, .pwConstruct), (0x00000041#32, .pwEncrypt), (0x00000042#32, .pwDecrypt),
   (0x00000043#32, .pwGetdigest), (0x00000044#32, .pwGetpassword), (0x0000007E#32, .clrerr),
   (0x0000007F#32, .sreset)]

/-- One row of the opcode table: a word `c` selects it when `c &&& mask = pattern` (R96). -/
structure OpcodeRow where
  /-- The row's mnemonic. -/
  mnemonic : String
  /-- The row's `match`. -/
  pattern : Word
  /-- The row's `mask`. -/
  mask : Word
  deriving DecidableEq, Repr

/-- The 21 rows of opcode_table.json (R96). -/
def opcodeRows : List OpcodeRow :=
  [⟨"NOP", 0x00000000#32, 0xFFFFFFFF#32⟩, ⟨"AES.KEYEXP", 0x00000001#32, 0xFFFFFCFF#32⟩,
   ⟨"AES.CIPHER", 0x00000002#32, 0xFFFFFFFF#32⟩, ⟨"AES.INVCIPHER", 0x00000003#32, 0xFFFFFFFF#32⟩,
   ⟨"MD5.INIT", 0x00000010#32, 0xFFFFFFFF#32⟩, ⟨"MD5.BLOCK", 0x00000011#32, 0xFFFFFFFF#32⟩,
   ⟨"MD5.DIGEST", 0x00000012#32, 0xFFFFFFFF#32⟩, ⟨"CTR.INC", 0x00000020#32, 0xFFFFFFFF#32⟩,
   ⟨"CTR.XFORM", 0x00000021#32, 0xFFFFFFFF#32⟩,
   ⟨"UTF8.ENC", 0x00000030#32, 0xFFFFFFFF#32⟩, ⟨"UTF8.DEC", 0x00000031#32, 0xFFFFFFFF#32⟩,
   ⟨"B64.ENC", 0x00000032#32, 0xFFFFFFFF#32⟩, ⟨"B64.DEC", 0x00000033#32, 0xFFFFFFFF#32⟩,
   ⟨"HEX.ENC", 0x00000034#32, 0xFFFFFFFF#32⟩,
   ⟨"PW.CONSTRUCT", 0x00000040#32, 0xFFFFFFFF#32⟩, ⟨"PW.ENCRYPT", 0x00000041#32, 0xFFFFFFFF#32⟩,
   ⟨"PW.DECRYPT", 0x00000042#32, 0xFFFFFFFF#32⟩, ⟨"PW.GETDIGEST", 0x00000043#32, 0xFFFFFFFF#32⟩,
   ⟨"PW.GETPASSWORD", 0x00000044#32, 0xFFFFFFFF#32⟩, ⟨"CLRERR", 0x0000007E#32, 0xFFFFFFFF#32⟩,
   ⟨"SRESET", 0x0000007F#32, 0xFFFFFFFF#32⟩]

/-- Whether a word selects a row of the table (R96). -/
def OpcodeRow.selects (r : OpcodeRow) (c : Word) : Bool := (c &&& r.mask) == r.pattern

/-- What the decoder reads from a table row's bits `w`, `nbits` of them, numbered as the table numbers them: bit 0 is the
least significant bit of the one 32-bit command word (R15, R90). Bits at `nbits` and above are zero; a value that is no
32-bit word is no command. -/
def decodeTableWord (nbits w : Nat) : Option Instr :=
  if w % 2 ^ nbits < 2 ^ 32 then decode (BitVec.ofNat 32 (w % 2 ^ nbits)) else none

end Sys2Proof
end

