-- ==== Sys2Proof/Config.lean ====
section
/-! DEFINITION. What an instance of CORE fixes for its whole life (spec 00_scope.md R11 to R13: BUF_BYTES, BUF_CPS and
SHA1), and the free values the spec leaves to the platform (R14, 10_state.md R43: the time ports). -/

namespace Sys2Proof

/-- What the parameter `SHA1` (R13) is instantiated with: the default function of 47_sha1_collaborator.md R262, or any
other collaborator, named by a number and otherwise unknown (R264). -/
inductive Sha1Unit where
  /-- The default instantiation, `Sys2Proof.Machine.sha1Standard` (R262). -/
  | standard
  /-- Another total function from byte sequences to 20 bytes (R260): `Config.externalSha1 k`. -/
  | external (k : Nat)
  deriving DecidableEq, Repr

/-- The parameters of one instance of CORE: the capacities of the buffers and the SHA-1 collaborator (R11, R12, R13).
They are open parameters of the spec, so they stand in `State` as plain data that no step changes, and a statement
about every state is a statement about every instance. -/
structure Params where
  /-- `BUF_BYTES`: capacity in bytes of `BIN` and of `BOUT` (R11). -/
  bufBytes : Nat
  /-- `BUF_CPS`: capacity in code points of `TIN`, `TOUT` and `PW` (R12). -/
  bufCps : Nat
  /-- `SHA1` (R13). -/
  sha1 : Sha1Unit
  deriving DecidableEq, Repr

/-- The ranges of R11 and R12. -/
abbrev Params.Legal (p : Params) : Prop :=
  64 ≤ p.bufBytes ∧ p.bufBytes ≤ 65536 ∧ 32 ≤ p.bufCps ∧ p.bufCps ≤ 65536

namespace Config

/-- The defaults of R11, R12 and R13. -/
def defaultParams : Params := { bufBytes := 4096, bufCps := 4096, sha1 := .standard }

/-- `MD5_MAXLEN + 1 = 2^29`: the first message length, in bytes, that the Hash Engine refuses (R10). -/
def md5Limit : Nat := 2 ^ 29

/-- FREE VALUE (log entry 2). A SHA-1 collaborator other than the default: total, deterministic, 20 bytes (R260), and
nothing else is known of it (R264). -/
opaque externalSha1 : Nat → List Byte → Vector Byte 20

/-- FREE VALUE (log entry 3). The value of the port `t_sec` at the `n`-th sample after the ones the environment has
listed (R43: "assumes nothing of them"). -/
opaque freeSec : Nat → BitVec 32

/-- FREE VALUE (log entry 3). The value of the port `t_ms` at that sample (R43). -/
opaque freeMs : Nat → BitVec 10

end Config

end Sys2Proof
end

