-- ==== Sys2Proof/Machine/State.lean ====
section
/-! DEFINITION. Everything the spec gives the machine, as plain data (spec 10_state.md R20 to R46): the control and status
registers, the engines' registers, the buffers, the Encryption Object, and beside them the model's own fields: the
parameters of the instance and the environment that drives the ports (R43, R44). -/

namespace Sys2Proof.Machine

/-- An array of `w`-bit elements, as a list of index and element pairs in one canonical form (`Memory.wf`): indexes
strictly rising, no element equal to 0. An unlisted element reads as 0, the reset value of every buffer (R36, R37, R40,
R45). `Memory 8` is a list of `Host.Cell`. -/
abbrev Memory (w : Nat) := List (Nat × BitVec w)

/-- The fault kinds of a command (60_exceptions.md R271). A fault is no stop: the command ends and the machine goes on
(R280), so these are data of the model and not the reasons of `Fault` below. -/
inductive CmdFault where
  /-- 0x01 (R273). -/
  | invalidInput
  /-- 0x02 (R274). -/
  | invalidCharacterCode
  /-- 0x03 (R275). -/
  | invalidUtf8Sequence
  /-- 0x04 (R277). -/
  | decodeFailure
  /-- 0x10 (R272). -/
  | illegalCommand
  /-- 0x11 (R278). -/
  | noSchedule
  /-- 0x12 (R279). -/
  | noObject
  /-- 0x13 (R276). -/
  | bufferOverflow
  deriving DecidableEq, Repr

/-- One sample of the two time ports (R43). -/
structure TimeSample where
  /-- `t_sec[31:0]`. -/
  sec : BitVec 32
  /-- `t_ms[9:0]`. -/
  ms : BitVec 10
  deriving DecidableEq, Repr

/-- What the outside world does to CORE between two steps: one host bus access (R44, 20_memory.md R64, R65; `size` is the
constructor, so a value has the width of its access), an assertion of the reset port (R300), or the platform's setting of
the time ports (R20, R43; 30_encoding.md R97). -/
inductive HostEvent where
  /-- `HostRead(addr, 1)`. -/
  | readByte (addr : Offset)
  /-- `HostRead(addr, 4)`. -/
  | readWord (addr : Offset)
  /-- `HostWrite(addr, 1, v)`. -/
  | writeByte (addr : Offset) (v : Byte)
  /-- `HostWrite(addr, 4, v)`. -/
  | writeWord (addr : Offset) (v : Word)
  /-- `rst_n` is asserted and released (R300). -/
  | hwReset
  /-- The platform drives this on the time ports for the next `PW.ENCRYPT`: a `time` line (R97; log entry 14). -/
  | driveTime (t : TimeSample)
  deriving DecidableEq, Repr

/-- What the bus port answered the most recent host access with: `ack` alone for a write, `ack` and `rdata` for a read,
`ack` with `err` for `HostErr` (R44, 20_memory.md R64 to R67). -/
inductive BusResponse where
  /-- No access has been served since reset. -/
  | idle
  /-- A write was accepted. -/
  | written
  /-- A 1-byte read returned this value. -/
  | byte (v : Byte)
  /-- A 4-byte read returned this value. -/
  | word (v : Word)
  /-- The access was not allowed (R67). -/
  | hostErr
  deriving DecidableEq, Repr

/-- The reasons CORE stops. There is none: a fault of a command is recorded in `ERR` and the machine goes on
(60_exceptions.md R280), a refused bus access is answered with `HostErr` (20_memory.md R67), and "Nothing in CORE is
`stuck`" (93_implementation_defined.md). Safe: no step ends in a fault. -/
inductive Fault where
  deriving DecidableEq, Repr

/-- The reasons the model gives an instruction no meaning. -/
inductive Refusal where
  /-- An instruction without a meaning in this model, by its mnemonic. No arm of `exec` raises it. Safe: the model
  stops where the hardware goes on. -/
  | notModelled (mnemonic : String)
  deriving DecidableEq, Repr

/-- The state of CORE. -/
structure State where
  /-- `CMD` (R24). -/
  cmd : Word
  /-- `STATUS.ERRF`, bit 0 (R25). -/
  errf : Bool
  /-- `STATUS.KSV`, bit 1 (R25). -/
  ksv : Bool
  /-- `STATUS.OBJV`, bit 2 (R25). -/
  objv : Bool
  /-- `STATUS.NR`, bits 7:4 (R25). -/
  nr : BitVec 4
  /-- `ERR[7:0]` (R26). -/
  err : Byte
  /-- `BINLEN` (R27). -/
  binlen : Word
  /-- `BOUTLEN` (R28). -/
  boutlen : Word
  /-- `TINLEN` (R29). -/
  tinlen : Word
  /-- `TOUTLEN` (R30). -/
  toutlen : Word
  /-- `H[0..3]` (R31). -/
  h : Vector Word 4
  /-- `KEY[0..31]` (R32). -/
  key : Vector Byte 32
  /-- `KS[0..239]` (R33). -/
  ks : Vector Byte 240
  /-- `BLK[0..15]` (R34). -/
  blk : Vector Byte 16
  /-- `CTRBLK[0..15]` (R35). -/
  ctrblk : Vector Byte 16
  /-- `BIN` (R36). -/
  bin : Memory 8
  /-- `BOUT` (R36). -/
  bout : Memory 8
  /-- `TIN` (R37). -/
  tin : Memory 32
  /-- `TOUT` (R37). -/
  tout : Memory 32
  /-- `PKS[0..239]`, the schedule of the Encryption Object, without a bus address (R39). -/
  pks : Vector Byte 240
  /-- `PW`, the stored password, without a bus address (R40). -/
  pw : Memory 32
  /-- `PWLEN` (R40). -/
  pwlen : Nat
  /-- `DIGEST[0..31]`, without a bus address (R41). -/
  digest : Vector Byte 32
  /-- The MODEL's own: the parameters of this instance, fixed for its life (R46; log entry 1). -/
  params : Params
  /-- The MODEL's own: what the outside world does next, the first event first (R20; log entry 4). -/
  events : List HostEvent
  /-- The MODEL's own: the bus port's answer to the last access (R44; log entry 5). -/
  response : BusResponse
  /-- The MODEL's own: the next samples of the time ports, one for each `PW.ENCRYPT` (R43; log entry 3). -/
  timeSamples : List TimeSample
  /-- The MODEL's own: how many samples have been taken (R43; log entry 3). -/
  samplesTaken : Nat
  deriving DecidableEq, Repr

/-- The machine right after hardware reset: "every piece of architectural state is zero" (70_reset_and_hazards.md R300,
10_state.md R45). The model's own fields: the default parameters (R11 to R13), no event pending, nothing answered, no
sample listed. -/
def State.reset : State where
  cmd := 0#32
  errf := false
  ksv := false
  objv := false
  nr := 0#4
  err := 0#8
  binlen := 0#32
  boutlen := 0#32
  tinlen := 0#32
  toutlen := 0#32
  h := Vector.replicate 4 0#32
  key := Vector.replicate 32 0#8
  ks := Vector.replicate 240 0#8
  blk := Vector.replicate 16 0#8
  ctrblk := Vector.replicate 16 0#8
  bin := []
  bout := []
  tin := []
  tout := []
  pks := Vector.replicate 240 0#8
  pw := []
  pwlen := 0
  digest := Vector.replicate 32 0#8
  params := Config.defaultParams
  events := []
  response := .idle
  timeSamples := []
  samplesTaken := 0

end Sys2Proof.Machine
end

