-- ==== Sys2Proof/Machine/Ops.lean ====
section
/-! DEFINITION. The shared operations over memories, byte sequences and the outcome of a command: reading and writing a
buffer, ending a command normally and by a fault (spec 60_exceptions.md R280), reset (70_reset_and_hazards.md R300). -/

namespace Sys2Proof.Machine

/-! ### Memories -/

/-- The canonical form of a memory: indexes strictly rising, no element 0. -/
abbrev Memory.wf {w : Nat} (m : Memory w) : Prop :=
  m.Pairwise (fun c d => c.1 < d.1) ∧ ∀ c ∈ m, c.2 ≠ 0#w

/-- Element `i`. An unlisted element is 0, its value at reset (R36, R37, R40). -/
def Memory.read {w : Nat} : Memory w → Nat → BitVec w
  | [], _ => 0#w
  | (a, v) :: m, i => if a = i then v else Memory.read m i

/-- Put `v` before a list of later cells, where `v` is not 0. -/
def Memory.cell {w : Nat} (i : Nat) (v : BitVec w) (m : Memory w) : Memory w :=
  if v = 0#w then m else (i, v) :: m

/-- `M[i] <- v` (R17). -/
def Memory.write {w : Nat} : Memory w → Nat → BitVec w → Memory w
  | [], i, v => Memory.cell i v []
  | (a, u) :: m, i, v =>
    if a < i then (a, u) :: Memory.write m i v
    else if a = i then Memory.cell i v m
    else Memory.cell i v ((a, u) :: m)

/-- The cells of a sequence laid out from index `i` on. -/
def Memory.cellsFrom {w : Nat} : Nat → List (BitVec w) → Memory w
  | _, [] => []
  | i, x :: xs => Memory.cell i x (Memory.cellsFrom (i + 1) xs)

/-- `M[0..len(xs)) <- xs`: elements at index `len(xs)` and above keep whatever they held (R36, R37). -/
def Memory.writePrefix {w : Nat} (m : Memory w) (xs : List (BitVec w)) : Memory w :=
  Memory.cellsFrom 0 xs ++ m.filter (fun c => decide (xs.length ≤ c.1))

/-- `M[0..n)` (R15). -/
def Memory.readPrefix {w : Nat} (m : Memory w) (n : Nat) : List (BitVec w) :=
  (List.range n).map (fun i => Memory.read m i)

/-! ### Byte sequences -/

/-- A sequence as an array of exactly `n` elements: cut after `n`, or filled with zeros. -/
def padTo {w : Nat} (n : Nat) (xs : List (BitVec w)) : Vector (BitVec w) n :=
  ⟨(xs.take n ++ List.replicate (n - xs.length) 0#w).toArray, by simp; omega⟩

/-- `rotl32(x, n)` for `0 < n < 32` (00_scope.md R16). -/
def rotl32 (x : Word) (n : Nat) : Word := (x <<< n) ||| (x >>> (32 - n))

/-- The four bytes of a word, least significant first (`LE32`, 43_md5.md R175). -/
def le32 (v : Word) : List Byte :=
  [v.extractLsb' 0 8, v.extractLsb' 8 8, v.extractLsb' 16 8, v.extractLsb' 24 8]

/-- The four bytes of a word, most significant first (47_sha1_collaborator.md R262). -/
def be32 (v : Word) : List Byte :=
  [v.extractLsb' 24 8, v.extractLsb' 16 8, v.extractLsb' 8 8, v.extractLsb' 0 8]

/-- The word of four bytes, the first least significant (43_md5.md R168). -/
def ofLe32 (b0 b1 b2 b3 : Byte) : Word := b3 ++ b2 ++ b1 ++ b0

/-- The word of four bytes, the first most significant (47_sha1_collaborator.md R261). -/
def ofBe32 (b0 b1 b2 b3 : Byte) : Word := b0 ++ b1 ++ b2 ++ b3

/-- A padded message cut into 64-byte blocks `p[64q .. 64q+64)`, in order of increasing offset (43_md5.md R168). -/
def blocks64 (p : List Byte) : List (List Byte) :=
  (List.range (p.length / 64)).map (fun q => (p.drop (64 * q)).take 64)

/-! ### The end of a command -/

/-- The code of a fault, the value of `ERR[7:0]` after the command (60_exceptions.md R271). -/
def faultCode : CmdFault → Byte
  | .invalidInput => 0x01#8
  | .invalidCharacterCode => 0x02#8
  | .invalidUtf8Sequence => 0x03#8
  | .decodeFailure => 0x04#8
  | .illegalCommand => 0x10#8
  | .noSchedule => 0x11#8
  | .noObject => 0x12#8
  | .bufferOverflow => 0x13#8

/-- TAKING A FAULT, from the state before the command: `ERR` gets the code, `STATUS.ERRF` is set, and nothing else changes
(60_exceptions.md R280). Nothing is saved, no mode changes, control goes nowhere. -/
def State.raise (s : State) (f : CmdFault) : State := { s with err := faultCode f, errf := true }

/-- A command that completes: `ERR <- 0x00`, `ERRF` as it was (R280). -/
def State.complete (s : State) : State := { s with err := 0x00#8 }

/-- The return from a fault, the effect of `CLRERR`: `STATUS.ERRF <- 0` (R285). It restores nothing, because a fault saved
nothing. -/
def State.clearFault (s : State) : State := { s with errf := false }

/-- The state after a command that began in `s` and whose pseudocode ended with `r`. A fault keeps nothing the pseudocode
assigned, even an assignment that stands before the `raise` (R280, 00_scope.md R17). -/
def State.conclude (s : State) (r : Except CmdFault State) : State :=
  match r with
  | .ok t => t.complete
  | .error f => s.raise f

/-- An input length or an output length over its capacity (60_exceptions.md R276). -/
def guardFits (n capacity : Nat) : Except CmdFault Unit :=
  if n > capacity then .error .bufferOverflow else .ok ()

/-- `BOUT[0..n) <- out ; BOUTLEN <- n` (R28, R36). -/
def State.emitBytes (s : State) (out : List Byte) : State :=
  { s with bout := s.bout.writePrefix out, boutlen := BitVec.ofNat 32 out.length }

/-- `TOUT[0..n) <- out ; TOUTLEN <- n` (R30, R37). -/
def State.emitText (s : State) (out : List Word) : State :=
  { s with tout := s.tout.writePrefix out, toutlen := BitVec.ofNat 32 out.length }

/-! ### Reset and the time ports -/

/-- Every piece of architectural state in its reset value (R45, R300). The parameters are fixed for the life of the
instance (R46); the environment is not CORE's state (R43). -/
def State.hardReset (s : State) : State :=
  { State.reset with
    params := s.params, events := s.events, response := s.response,
    timeSamples := s.timeSamples, samplesTaken := s.samplesTaken }

/-- The next sample of the time ports: what the environment has listed, else a free value (R43, 00_scope.md R14). -/
def State.timeSample (s : State) : TimeSample :=
  s.timeSamples.headD { sec := Config.freeSec s.samplesTaken, ms := Config.freeMs s.samplesTaken }

/-- The platform states what the ports hold at the next sample, in place of what the environment had listed for it; later
samples are as they were (30_encoding.md R97; log entry 14). -/
def State.driveTime (s : State) (t : TimeSample) : State := { s with timeSamples := t :: s.timeSamples.tail }

/-- The environment after a sample: the ports are "sampled exactly once, together, by each `PW.ENCRYPT` command and by
nothing else" (R43). -/
def State.takeSample (s : State) : State :=
  { s with timeSamples := s.timeSamples.tail, samplesTaken := s.samplesTaken + 1 }

end Sys2Proof.Machine
end

