-- ==== Sys2Proof/Machine/Flags.lean ====
section
/-! DEFINITION. The flags of `STATUS` and the two read-only registers made of fields (spec 10_state.md R23, R25, R26).
CORE has no arithmetic condition codes. `ERRF` is set and cleared in Machine/Ops.lean (`State.raise`,
`State.clearFault`). -/

namespace Sys2Proof.Machine

/-- The 32-bit value of `STATUS`: bit 0 `ERRF`, bit 1 `KSV`, bit 2 `OBJV`, bit 3 reads 0, bits 7:4 `NR`, bits 31:8 read 0
(R25). -/
def State.statusWord (s : State) : Word :=
  0#24 ++ s.nr ++ 0#1 ++ BitVec.ofBool s.objv ++ BitVec.ofBool s.ksv ++ BitVec.ofBool s.errf

/-- The 32-bit value of `ERR`: bits 31:8 read 0 (R26). -/
def State.errWord (s : State) : Word := 0#24 ++ s.err

/-- A schedule of `nr` rounds is valid: `KSV <- 1 ; NR <- nr` (R25, 40_aes_key_expansion.md R117). -/
def State.setSchedule (s : State) (nr : Nat) : State := { s with ksv := true, nr := BitVec.ofNat 4 nr }

/-- The lifetime of the schedule ends: `KSV <- 0`, `NR <- 0` (R25, R32). -/
def State.endSchedule (s : State) : State := { s with ksv := false, nr := 0#4 }

/-- "a command needs `KS` and `STATUS.KSV = 0`" (60_exceptions.md R278). -/
def State.requireSchedule (s : State) : Except CmdFault Unit :=
  if s.ksv = false then .error .noSchedule else .ok ()

/-- "a command needs the Encryption Object and `STATUS.OBJV = 0`" (60_exceptions.md R279). -/
def State.requireObject (s : State) : Except CmdFault Unit :=
  if s.objv = false then .error .noObject else .ok ()

end Sys2Proof.Machine
end

