-- ==== Sys2Proof/Machine/Operands.lean ====
section
/-! DEFINITION. The operands of the commands: the one explicit field `KSZ` (spec 30_encoding.md R93) and the implicit
ones, prefixes of the input buffers given by the length registers (20_memory.md R61, R72) and fixed arrays
(10_state.md R47). -/

namespace Sys2Proof.Machine

/-- `Nk = 4 + 2 × KSZ`, the key length in words (R93). -/
def kszNk (ksz : BitVec 2) : Nat := 4 + 2 * ksz.toNat

/-- `Nr = Nk + 6`, the number of rounds (00_scope.md R9). -/
def roundsOf (nk : Nat) : Nat := nk + 6

/-- `KEY[0 .. 4×Nk)` (10_state.md R32). -/
def State.keyOperand (s : State) (nk : Nat) : List Byte := s.key.toList.take (4 * nk)

/-- `BIN[0..BINLEN)`, refused before any element is read where `BINLEN > BUF_BYTES` (R72; 60_exceptions.md R276). -/
def State.binInput (s : State) : Except CmdFault (List Byte) := do
  guardFits s.binlen.toNat s.params.bufBytes
  return s.bin.readPrefix s.binlen.toNat

/-- `TIN[0..TINLEN)`, refused before any element is read where `TINLEN > BUF_CPS` (R72; 60_exceptions.md R276). -/
def State.textInput (s : State) : Except CmdFault (List Word) := do
  guardFits s.tinlen.toNat s.params.bufCps
  return s.tin.readPrefix s.tinlen.toNat

/-- `BIN[0..64)`, the operand of `MD5.BLOCK`, whatever `BINLEN` holds (43_md5.md R182). -/
def State.blockInput (s : State) : List Byte := s.bin.readPrefix 64

/-- `PW[0..PWLEN)`, the stored password (10_state.md R40). -/
def State.storedPassword (s : State) : List Word := s.pw.readPrefix s.pwlen

end Sys2Proof.Machine
end

