-- ==== Sys2Proof/Machine/Bus.lean ====
section
/-! DEFINITION. The bus port: the address map and the two primitives `HostRead` and `HostWrite` (spec 20_memory.md R60 to
R69). The write of `CMD` starts a command and is in Machine/Sequencer.lean. -/

namespace Sys2Proof.Machine

/-- The word locations (R66). -/
inductive WordArr where
  | cmd | status | err | binlen | boutlen | tinlen | toutlen | h | tin | tout
  deriving DecidableEq, Repr

/-- The byte locations (R66). -/
inductive ByteArr where
  | key | blk | ctrblk | ks | bin | bout
  deriving DecidableEq, Repr

/-- One row of the address map: `count` locations from offset `base` on (R62). -/
structure MapRow (κ : Type) where
  /-- The array the row holds. -/
  array : κ
  /-- Offset of element 0. -/
  base : Nat
  /-- Number of elements. -/
  count : Nat
  /-- Whether the host access includes write; read is in every row. -/
  writable : Bool
  deriving DecidableEq, Repr

/-- The rows of the address map whose width is a word: element `i` at `base + 4i` (R62). -/
def wordRows (p : Params) : List (MapRow WordArr) :=
  [⟨.cmd, 0x00000, 1, true⟩, ⟨.status, 0x00004, 1, false⟩, ⟨.err, 0x00008, 1, false⟩,
   ⟨.binlen, 0x0000C, 1, true⟩, ⟨.boutlen, 0x00010, 1, false⟩, ⟨.tinlen, 0x00014, 1, true⟩,
   ⟨.toutlen, 0x00018, 1, false⟩, ⟨.h, 0x00020, 4, true⟩,
   ⟨.tin, 0x40000, p.bufCps, true⟩, ⟨.tout, 0x80000, p.bufCps, false⟩]

/-- The rows of the address map whose width is a byte: element `i` at `base + i` (R62, R68). -/
def byteRows (p : Params) : List (MapRow ByteArr) :=
  [⟨.key, 0x00040, 32, true⟩, ⟨.blk, 0x00060, 16, true⟩, ⟨.ctrblk, 0x00070, 16, true⟩,
   ⟨.ks, 0x00100, 240, false⟩, ⟨.bin, 0x10000, p.bufBytes, true⟩, ⟨.bout, 0x20000, p.bufBytes, false⟩]

/-- Whether offset `a` is that of an element of the row, for elements `stride` bytes apart (R62, R66). -/
def rowHolds {κ : Type} (stride a : Nat) (r : MapRow κ) : Bool :=
  decide (r.base ≤ a) && decide ((a - r.base) % stride = 0) && decide ((a - r.base) / stride < r.count)

/-- The row and the element index at offset `a`; none where no location of this width stands there: an unmapped offset, a
location of the other width, a misaligned word (R62, R66, R67). -/
def locate {κ : Type} (rows : List (MapRow κ)) (stride a : Nat) : Option (MapRow κ × Nat) :=
  (rows.find? (rowHolds stride a)).map (fun r => (r, (a - r.base) / stride))

/-- The word location at an offset. -/
def locateWord (p : Params) (addr : Offset) : Option (MapRow WordArr × Nat) := locate (wordRows p) 4 addr.toNat

/-- The byte location at an offset. -/
def locateByte (p : Params) (addr : Offset) : Option (MapRow ByteArr × Nat) := locate (byteRows p) 1 addr.toNat

/-- The value of element `i` of a word array. -/
def State.wordAt (s : State) (k : WordArr) (i : Nat) : Word :=
  match k with
  | .cmd => s.cmd
  | .status => s.statusWord
  | .err => s.errWord
  | .binlen => s.binlen
  | .boutlen => s.boutlen
  | .tinlen => s.tinlen
  | .toutlen => s.toutlen
  | .h => s.h.toList.getD i 0#32
  | .tin => s.tin.read i
  | .tout => s.tout.read i

/-- The value of element `i` of a byte array. -/
def State.byteAt (s : State) (k : ByteArr) (i : Nat) : Byte :=
  match k with
  | .key => s.key.toList.getD i 0#8
  | .blk => s.blk.toList.getD i 0#8
  | .ctrblk => s.ctrblk.toList.getD i 0#8
  | .ks => s.ks.toList.getD i 0#8
  | .bin => s.bin.read i
  | .bout => s.bout.read i

/-- Store a word in element `i` of an array the host may write. The side effect of `CMD` is the sequencer's (R69 (a)); a
read-only array is left alone. -/
def State.putWord (s : State) (k : WordArr) (i : Nat) (v : Word) : State :=
  match k with
  | .cmd => { s with cmd := v }
  | .binlen => { s with binlen := v }
  | .tinlen => { s with tinlen := v }
  | .h => { s with h := s.h.setIfInBounds i v }
  | .tin => { s with tin := s.tin.write i v }
  | .status | .err | .boutlen | .toutlen | .tout => s

/-- Store a byte in element `i` of an array the host may write. A write of any byte of `KEY` ends the lifetime of the
schedule, whatever the value (R69 (b), 10_state.md R32); a read-only array is left alone. -/
def State.putByte (s : State) (k : ByteArr) (i : Nat) (v : Byte) : State :=
  match k with
  | .key => { s with key := s.key.setIfInBounds i v }.endSchedule
  | .blk => { s with blk := s.blk.setIfInBounds i v }
  | .ctrblk => { s with ctrblk := s.ctrblk.setIfInBounds i v }
  | .bin => { s with bin := s.bin.write i v }
  | .ks | .bout => s

/-- The bus answers an access. -/
def State.respond (s : State) (r : BusResponse) : State := { s with response := r }

/-- `HostRead(addr, 1)`: no state changes (R64). -/
def State.hostReadByte (s : State) (addr : Offset) : State :=
  match locateByte s.params addr with
  | some (r, i) => s.respond (.byte (s.byteAt r.array i))
  | none => s.respond .hostErr

/-- `HostRead(addr, 4)`: no state changes (R64). -/
def State.hostReadWord (s : State) (addr : Offset) : State :=
  match locateWord s.params addr with
  | some (r, i) => s.respond (.word (s.wordAt r.array i))
  | none => s.respond .hostErr

/-- `HostWrite(addr, 1, v)` (R65). A write that is not allowed changes nothing (R67). -/
def State.hostWriteByte (s : State) (addr : Offset) (v : Byte) : State :=
  match locateByte s.params addr with
  | some (r, i) => if r.writable = true then (s.putByte r.array i v).respond .written else s.respond .hostErr
  | none => s.respond .hostErr

/-- `HostWrite(addr, 4, v)` at an offset other than that of `CMD` (R65). A write that is not allowed changes nothing
(R67). -/
def State.hostWriteWord (s : State) (addr : Offset) (v : Word) : State :=
  match locateWord s.params addr with
  | some (r, i) => if r.writable = true then (s.putWord r.array i v).respond .written else s.respond .hostErr
  | none => s.respond .hostErr

/-- The offset of `CMD` (R62). -/
def cmdOffset : Offset := 0x00000#20

end Sys2Proof.Machine
end

