-- ==== Sys2Proof/Machine/AesKeyExp.lean ====
section
/-! DEFINITION. Key expansion and the command `AES.KEYEXP` (spec 40_aes_key_expansion.md R110 to R117). -/

namespace Sys2Proof.Machine

/-- A word `w[i]` of the schedule: four bytes in order, never an integer (R110, 20_memory.md R71). -/
abbrev KeyWord := Vector Byte 4

/-- `RotWord`: one byte toward lower index (R112). -/
def rotWord (t : KeyWord) : KeyWord := #v[t[1], t[2], t[3], t[0]]

/-- `SubWord` (R113). -/
def subWord (t : KeyWord) : KeyWord := #v[sbox t[0], sbox t[1], sbox t[2], sbox t[3]]

/-- Byte-wise XOR of two words (R115). -/
def xorWord (u t : KeyWord) : KeyWord := #v[u[0] ^^^ t[0], u[1] ^^^ t[1], u[2] ^^^ t[2], u[3] ^^^ t[3]]

/-- The round constant is XORed into byte 0 of the word only (R114). -/
def addRoundConstant (t : KeyWord) (rc : Byte) : KeyWord := #v[t[0] ^^^ rc, t[1], t[2], t[3]]

/-- `w[i]` for `i < Nk`: "copy the key verbatim as the first words of the schedule" (R115). -/
def keyWord (key : List Byte) (i : Nat) : KeyWord :=
  #v[key.getD (4 * i) 0#8, key.getD (4 * i + 1) 0#8, key.getD (4 * i + 2) 0#8, key.getD (4 * i + 3) 0#8]

/-- Word `i` of a schedule under construction. -/
def scheduleWord (ws : List KeyWord) (i : Nat) : KeyWord := ws.getD i #v[0#8, 0#8, 0#8, 0#8]

/-- One turn of the loop of `KeyExpansion`: the words so far and the round constant, after word `i` is computed from
`w[i-1]` and `w[i-Nk]` by case (a), (b) or (c) (R115). -/
def keyExpansionStep (nk : Nat) (wrc : List KeyWord × Byte) (i : Nat) : List KeyWord × Byte :=
  let t := scheduleWord wrc.1 (i - 1)
  let u := scheduleWord wrc.1 (i - nk)
  if i % nk = 0 then (wrc.1 ++ [xorWord u (addRoundConstant (subWord (rotWord t)) wrc.2)], xtime wrc.2)
  else if nk = 8 ∧ i % nk = 4 then (wrc.1 ++ [xorWord u (subWord t)], wrc.2)
  else (wrc.1 ++ [xorWord u t], wrc.2)

/-- The words `w[0] .. w[4×(Nr+1) - 1]`; the round constant starts at 0x01 (R114, R115). -/
def keyExpansionWords (key : List Byte) (nk : Nat) : List KeyWord :=
  ((List.range' nk (4 * (roundsOf nk + 1) - nk)).foldl (keyExpansionStep nk)
    ((List.range nk).map (keyWord key), 0x01#8)).1

/-- `KeyExpansion(key, Nk)`: the schedule, `16×(Nr+1)` bytes (R110, R115). -/
def keyExpansion (key : List Byte) (nk : Nat) : List Byte :=
  (keyExpansionWords key nk).flatMap (fun w => w.toList)

/-- The pseudocode of `AES.KEYEXP` (R117). Bytes of `KS` from `16×(Nr+1)` on are written with 0x00. -/
def keyexpBody (ksz : BitVec 2) (s : State) : Except CmdFault State :=
  let nk := kszNk ksz
  .ok ({ s with ks := padTo 240 (keyExpansion (s.keyOperand nk) nk) }.setSchedule (roundsOf nk))

/-- `AES.KEYEXP` (R117). "`KSZ = 3` never reaches this rule because the word is illegal": that term of `Instr` takes the
fault of its word (30_encoding.md R93, R95). -/
def execAesKeyexp (ksz : BitVec 2) (s : State) : Host.Outcome State Fault Refusal :=
  .next (s.conclude (if kszLegal ksz = true then keyexpBody ksz s else .error .illegalCommand))

end Sys2Proof.Machine
end

