-- ==== Sys2Proof/Machine/AesCipher.lean ====
section
/-! DEFINITION. The forward transform and the command `AES.CIPHER` (spec 41_aes_cipher.md R132 to R142). -/

namespace Sys2Proof.Machine

/-- The State of the cipher: 16 bytes, byte `i` in row `i mod 4`, column `i div 4` (R132). -/
abbrev Block := Vector Byte 16

/-- A schedule as `KS` and `PKS` hold it (10_state.md R33, R39). -/
abbrev Schedule := Vector Byte 240

/-- The element in row `r`, column `c`, both taken modulo 4: byte `r + 4c` (R132). -/
def cellAt (s : Block) (r c : Nat) : Byte := s[r % 4 + 4 * (c % 4)]'(by omega)

/-- Round-key slice `r`: bytes `16r .. 16r+15` of the schedule (R133, 00_scope.md R19). -/
def roundKey (ks : Schedule) (r : Nat) : List Byte := (ks.toList.drop (16 * r)).take 16

/-- `AddRoundKey(s, ks, r)` (R133). -/
def addRoundKey (s : Block) (ks : Schedule) (r : Nat) : Block :=
  Vector.ofFn fun i => s[i] ^^^ (roundKey ks r).getD i.val 0#8

/-- `SubBytes(s)` (R134). -/
def subBytes (s : Block) : Block := Vector.ofFn fun i => sbox s[i]

/-- `ShiftRows(s)`: `s'[r + 4c] = s[r + 4×((c + r) mod 4)]` (R135). -/
def shiftRows (s : Block) : Block := Vector.ofFn fun i => cellAt s (i.val % 4) (i.val / 4 + i.val % 4)

/-- Row `r` of the column `[a0, a1, a2, a3]` times the circulant matrix with first row `m0 m1 m2 m3` (R136,
42_aes_inv_cipher.md R153). -/
def mixRow (m0 m1 m2 m3 : Byte) (s : Block) (r c : Nat) : Byte :=
  gmul (cellAt s r c) m0 ^^^ gmul (cellAt s (r + 1) c) m1 ^^^ gmul (cellAt s (r + 2) c) m2
    ^^^ gmul (cellAt s (r + 3) c) m3

/-- `MixColumns(s)`: the circulant matrix with first row `02 03 01 01` (R136; `gmul(a, 1) = a`, R131). -/
def mixColumns (s : Block) : Block :=
  Vector.ofFn fun i => mixRow 0x02#8 0x03#8 0x01#8 0x01#8 s (i.val % 4) (i.val / 4)

/-- One middle round, in the order SubBytes, ShiftRows, MixColumns, AddRoundKey (R140). -/
def cipherRound (ks : Schedule) (s : Block) (r : Nat) : Block :=
  addRoundKey (mixColumns (shiftRows (subBytes s))) ks r

/-- `Cipher(block, ks, Nr)` (R140). -/
def cipher (block : Block) (ks : Schedule) (nr : Nat) : Block :=
  let s := (List.range' 1 (nr - 1)).foldl (cipherRound ks) (addRoundKey block ks 0)
  addRoundKey (shiftRows (subBytes s)) ks nr

/-- The pseudocode of `AES.CIPHER` (R142). -/
def cipherBody (s : State) : Except CmdFault State := do
  s.requireSchedule
  return { s with blk := cipher s.blk s.ks s.nr.toNat }

/-- `AES.CIPHER` (R142). -/
def execAesCipher (s : State) : Host.Outcome State Fault Refusal := .next (s.conclude (cipherBody s))

end Sys2Proof.Machine
end

