-- ==== Sys2Proof/Machine/AesInvCipher.lean ====
section
/-! DEFINITION. The inverse transform and the command `AES.INVCIPHER` (spec 42_aes_inv_cipher.md R150 to R155). -/

namespace Sys2Proof.Machine

/-- `InvSubBytes(s)` (R151). -/
def invSubBytes (s : Block) : Block := Vector.ofFn fun i => invSbox s[i]

/-- `InvShiftRows(s)`: `s'[r + 4c] = s[r + 4×((c - r) mod 4)]` (R152); `c - r` is `c + 4 - r` modulo 4. -/
def invShiftRows (s : Block) : Block := Vector.ofFn fun i => cellAt s (i.val % 4) (i.val / 4 + 4 - i.val % 4)

/-- `InvMixColumns(s)`: the circulant matrix with first row `0e 0b 0d 09` (R153). -/
def invMixColumns (s : Block) : Block :=
  Vector.ofFn fun i => mixRow 0x0E#8 0x0B#8 0x0D#8 0x09#8 s (i.val % 4) (i.val / 4)

/-- One middle round of the inverse: AddRoundKey comes before InvMixColumns (R154). -/
def invCipherRound (ks : Schedule) (s : Block) (r : Nat) : Block :=
  invMixColumns (addRoundKey (invSubBytes (invShiftRows s)) ks r)

/-- `InvCipher(block, ks, Nr)`: the round keys in reverse order (R154). -/
def invCipher (block : Block) (ks : Schedule) (nr : Nat) : Block :=
  let s := (List.range' 1 (nr - 1)).reverse.foldl (invCipherRound ks) (addRoundKey block ks nr)
  addRoundKey (invSubBytes (invShiftRows s)) ks 0

/-- The pseudocode of `AES.INVCIPHER` (R155). -/
def invCipherBody (s : State) : Except CmdFault State := do
  s.requireSchedule
  return { s with blk := invCipher s.blk s.ks s.nr.toNat }

/-- `AES.INVCIPHER` (R155). -/
def execAesInvcipher (s : State) : Host.Outcome State Fault Refusal := .next (s.conclude (invCipherBody s))

end Sys2Proof.Machine
end

