-- ==== Sys2Proof/Machine/Base64.lean ====
section
/-! DEFINITION. The Base64 and hexadecimal codecs and the commands `B64.ENC`, `B64.DEC`, `HEX.ENC` (spec 45_codecs.md R210
to R219). -/

namespace Sys2Proof.Machine

/-! ### The Base64 alphabet -/

/-- The padding character `=` (R210). -/
def b64Pad : Word := 0x3D#32

/-- `B64CH[v]`: `A`..`Z`, `a`..`z`, `0`..`9`, `+`, `/` (R210). -/
def b64Char (v : BitVec 6) : Word :=
  if v < 26#6 then 0x41#32 + v.setWidth 32
  else if v < 52#6 then 0x61#32 + (v.setWidth 32 - 26#32)
  else if v < 62#6 then 0x30#32 + (v.setWidth 32 - 52#32)
  else if v = 62#6 then 0x2B#32
  else 0x2F#32

/-- `B64VAL[c]`, the inverse map; none on every other code point (R210). -/
def b64Val (c : Word) : Option (BitVec 6) :=
  if 0x41#32 ≤ c ∧ c ≤ 0x5A#32 then some ((c - 0x41#32).setWidth 6)
  else if 0x61#32 ≤ c ∧ c ≤ 0x7A#32 then some ((c - 0x61#32 + 26#32).setWidth 6)
  else if 0x30#32 ≤ c ∧ c ≤ 0x39#32 then some ((c - 0x30#32 + 52#32).setWidth 6)
  else if c = 0x2B#32 then some 62#6
  else if c = 0x2F#32 then some 63#6
  else none

/-! ### Encoding -/

/-- The four characters of 24 bits, first to last: `v[23:18]`, `v[17:12]`, `v[11:6]`, `v[5:0]` (R211). -/
def b64Quad (v : BitVec 24) : List Word :=
  [b64Char (v.extractLsb' 18 6), b64Char (v.extractLsb' 12 6), b64Char (v.extractLsb' 6 6), b64Char (v.extractLsb' 0 6)]

/-- `B64Enc(b)`: groups of three bytes; a last group of one or two bytes is filled with zero bits, and the characters
that hold no data are `=` (R211). -/
def b64Encode : List Byte → List Word
  | [] => []
  | [x] => (b64Quad (x ++ 0#8 ++ 0#8)).take 2 ++ [b64Pad, b64Pad]
  | [x, y] => (b64Quad (x ++ y ++ 0#8)).take 3 ++ [b64Pad]
  | x :: y :: z :: b => b64Quad (x ++ y ++ z) ++ b64Encode b

/-! ### Decoding -/

/-- The 24 bits of four 6-bit values, the first most significant (R213). -/
def b64Bits (v0 v1 v2 v3 : BitVec 6) : BitVec 24 := v0 ++ v1 ++ v2 ++ v3

/-- The three bytes of 24 bits: `v[23:16]`, `v[15:8]`, `v[7:0]` (R213). -/
def b64Bytes (v : BitVec 24) : List Byte := [v.extractLsb' 16 8, v.extractLsb' 8 8, v.extractLsb' 0 8]

/-- How many of the four characters of a group are padding: 1 where the last is `=`, 2 where the third is `=` as well
(R213). -/
def b64PadCount (q2 q3 : Word) : Nat := if q3 = b64Pad then (if q2 = b64Pad then 2 else 1) else 0

/-- The value of a character of the group that holds data. Any other character, `=` among them, is a `DecodeFailure`
(R213). -/
def b64Digit (q : Word) : Except CmdFault (BitVec 6) :=
  match b64Val q with
  | some v => .ok v
  | none => .error .decodeFailure

/-- The six bits of a character that holds data, zero bits for one that is padding: `v <- v << (6 * pad)` (R213). -/
def b64DataDigit (isData : Bool) (q : Word) : Except CmdFault (BitVec 6) :=
  if isData = true then b64Digit q else .ok 0#6

/-- The bytes of 24 bits under `pad` padding characters: the first `3 - pad`, with the discarded bits zero (R213). -/
def b64Keep (pad : Nat) (v : BitVec 24) : Except CmdFault (List Byte) :=
  if pad = 1 ∧ v.extractLsb' 0 8 ≠ 0#8 then .error .decodeFailure
  else if pad = 2 ∧ v.extractLsb' 0 16 ≠ 0#16 then .error .decodeFailure
  else .ok ((b64Bytes v).take (3 - pad))

/-- The bytes of one group of four characters (R213). -/
def b64DecGroup (q0 q1 q2 q3 : Word) : Except CmdFault (List Byte) := do
  let pad := b64PadCount q2 q3
  let v0 ← b64Digit q0
  let v1 ← b64Digit q1
  let v2 ← b64DataDigit (decide (pad < 2)) q2
  let v3 ← b64DataDigit (decide (pad < 1)) q3
  b64Keep pad (b64Bits v0 v1 v2 v3)

/-- The groups of `B64Dec`, in order: padding only in the last one (R213). Fewer than four characters at the end are no
group: the length is no multiple of 4. -/
def b64DecGroups : List Word → Except CmdFault (List Byte)
  | [] => .ok []
  | q0 :: q1 :: q2 :: q3 :: t => do
    if b64PadCount q2 q3 > 0 ∧ t ≠ [] then .error .decodeFailure
    else
      let b ← b64DecGroup q0 q1 q2 q3
      let bs ← b64DecGroups t
      return b ++ bs
  | [_] | [_, _] | [_, _, _] => .error .decodeFailure

/-- `B64Dec(t)`, strict: the length test comes first (R213). -/
def b64Decode (t : List Word) : Except CmdFault (List Byte) :=
  if t.length % 4 ≠ 0 then .error .decodeFailure else b64DecGroups t

/-! ### Hexadecimal -/

/-- `HEXCH[v]`: `0`..`9`, `a`..`f` (R218). -/
def hexChar (v : BitVec 4) : Word :=
  if v < 10#4 then 0x30#32 + v.setWidth 32 else 0x61#32 + (v.setWidth 32 - 10#32)

/-- `HexEnc(b)`: two characters a byte, the high nibble first (R218). -/
def hexEncode (b : List Byte) : List Word :=
  b.flatMap (fun x => [hexChar (x.extractLsb' 4 4), hexChar (x.extractLsb' 0 4)])

/-! ### The commands -/

/-- The pseudocode of `B64.ENC` (R212). -/
def b64EncBody (s : State) : Except CmdFault State := do
  let b ← s.binInput
  guardFits (4 * ((b.length + 2) / 3)) s.params.bufCps
  return s.emitText (b64Encode b)

/-- `B64.ENC` (R212). -/
def execB64Enc (s : State) : Host.Outcome State Fault Refusal := .next (s.conclude (b64EncBody s))

/-- The pseudocode of `B64.DEC` (R215). -/
def b64DecBody (s : State) : Except CmdFault State := do
  let t ← s.textInput
  let out ← b64Decode t
  guardFits out.length s.params.bufBytes
  return s.emitBytes out

/-- `B64.DEC` (R215). -/
def execB64Dec (s : State) : Host.Outcome State Fault Refusal := .next (s.conclude (b64DecBody s))

/-- The pseudocode of `HEX.ENC` (R219). -/
def hexEncBody (s : State) : Except CmdFault State := do
  let b ← s.binInput
  guardFits (2 * b.length) s.params.bufCps
  return s.emitText (hexEncode b)

/-- `HEX.ENC` (R219). -/
def execHexEnc (s : State) : Host.Outcome State Fault Refusal := .next (s.conclude (hexEncBody s))

end Sys2Proof.Machine
end

