-- ==== Sys2Proof/Machine/Ctr.lean ====
section
/-! DEFINITION. The counter-mode stream construction and the commands `CTR.INC`, `CTR.XFORM` (spec 44_ctr.md R190 to
R193). -/

namespace Sys2Proof.Machine

/-- Add 1 to a byte sequence whose first byte is the least significant: stop at the first byte that does not wrap to 0
(the loop of R190, read from byte 15 to byte 0). -/
def incrementBytes : List Byte → List Byte
  | [] => []
  | b :: bs => if b + 1#8 = 0#8 then 0#8 :: incrementBytes bs else (b + 1#8) :: bs

/-- `CtrInc(cb)`: the 128-bit big-endian increment, "carry propagates from the last byte leftward, wrapping at 256 per
byte" (R190). -/
def ctrInc (cb : Block) : Block := padTo 16 (incrementBytes cb.toList.reverse).reverse

/-- XOR of a message piece with as many bytes of keystream (R192). -/
def xorBytes (m z : List Byte) : List Byte := List.zipWith (fun x y => x ^^^ y) m z

/-- The loop of `CtrXform` over the next `k` blocks of 16 bytes, the last one possibly partial: encrypt the Counter Block,
increment it, XOR (R192). Returns the transformed bytes and the Counter Block at the end. -/
def ctrBlocks (ks : Schedule) (nr : Nat) : Nat → Block → List Byte → List Byte × Block
  | 0, cb, _ => ([], cb)
  | k + 1, cb, m =>
    let z := cipher cb ks nr
    let r := ctrBlocks ks nr k (ctrInc cb) (m.drop 16)
    (xorBytes (m.take 16) z.toList ++ r.1, r.2)

/-- `CtrXform(cb, m, ks, Nr)`: `ceil(n / 16)` blocks (R192). -/
def ctrXform (cb : Block) (m : List Byte) (ks : Schedule) (nr : Nat) : List Byte × Block :=
  ctrBlocks ks nr ((m.length + 15) / 16) cb m

/-- `CTR.INC` (R191). -/
def execCtrInc (s : State) : Host.Outcome State Fault Refusal :=
  .next (s.conclude (.ok { s with ctrblk := ctrInc s.ctrblk }))

/-- The pseudocode of `CTR.XFORM`; the schedule is tested before the length (R193). -/
def ctrXformBody (s : State) : Except CmdFault State := do
  s.requireSchedule
  let m ← s.binInput
  let r := ctrXform s.ctrblk m s.ks s.nr.toNat
  return { s with ctrblk := r.2 }.emitBytes r.1

/-- `CTR.XFORM` (R193). -/
def execCtrXform (s : State) : Host.Outcome State Fault Refusal := .next (s.conclude (ctrXformBody s))

end Sys2Proof.Machine
end

