-- ==== Sys2Proof/Machine/Md5.lean ====
section
/-! DEFINITION. The Hash Engine: MD5 and the commands `MD5.INIT`, `MD5.BLOCK`, `MD5.DIGEST` (spec 43_md5.md R165 to
R183). -/

namespace Sys2Proof.Machine

/-! ### Padding and message words -/

/-- `MD5Pad(m)`: the byte 0x80, `(55 - n) mod 64` zero bytes, and the bit length `8n` as two little-endian words, the
low-order word first; the high-order word is always zero (R167). -/
def md5Pad (m : List Byte) : List Byte :=
  m ++ [0x80#8] ++ List.replicate ((119 - m.length % 64) % 64) 0x00#8
    ++ le32 (BitVec.ofNat 32 (8 * m.length)) ++ [0x00#8, 0x00#8, 0x00#8, 0x00#8]

/-- The message word `X[j]` of a block, little-endian (R168). -/
def md5Word (blk : List Byte) (j : Nat) : Word :=
  ofLe32 (blk.getD (4 * j) 0#8) (blk.getD (4 * j + 1) 0#8) (blk.getD (4 * j + 2) 0#8) (blk.getD (4 * j + 3) 0#8)

/-! ### Constants -/

/-- The four initial hash words `IV` (R169). -/
def md5Iv : Vector Word 4 := #v[0x67452301#32, 0xEFCDAB89#32, 0x98BADCFE#32, 0x10325476#32]

/-- The mixing function of step `i`: F, G, H or I by round (R170). -/
def md5Mix (i : Nat) (b c d : Word) : Word :=
  if i < 16 then (b &&& c) ||| (~~~b &&& d)
  else if i < 32 then (b &&& d) ||| (c &&& ~~~d)
  else if i < 48 then b ^^^ c ^^^ d
  else c ^^^ (b ||| ~~~d)

/-- The table `T[0..63]` of additive constants (R171). -/
def md5T : List Word :=
  [0xD76AA478, 0xE8C7B756, 0x242070DB, 0xC1BDCEEE,
   0xF57C0FAF, 0x4787C62A, 0xA8304613, 0xFD469501,
   0x698098D8, 0x8B44F7AF, 0xFFFF5BB1, 0x895CD7BE,
   0x6B901122, 0xFD987193, 0xA679438E, 0x49B40821,
   0xF61E2562, 0xC040B340, 0x265E5A51, 0xE9B6C7AA,
   0xD62F105D, 0x02441453, 0xD8A1E681, 0xE7D3FBC8,
   0x21E1CDE6, 0xC33707D6, 0xF4D50D87, 0x455A14ED,
   0xA9E3E905, 0xFCEFA3F8, 0x676F02D9, 0x8D2A4C8A,
   0xFFFA3942, 0x8771F681, 0x6D9D6122, 0xFDE5380C,
   0xA4BEEA44, 0x4BDECFA9, 0xF6BB4B60, 0xBEBFBC70,
   0x289B7EC6, 0xEAA127FA, 0xD4EF3085, 0x04881D05,
   0xD9D4D039, 0xE6DB99E5, 0x1FA27CF8, 0xC4AC5665,
   0xF4292244, 0x432AFF97, 0xAB9423A7, 0xFC93A039,
   0x655B59C3, 0x8F0CCC92, 0xFFEFF47D, 0x85845DD1,
   0x6FA87E4F, 0xFE2CE6E0, 0xA3014314, 0x4E0811A1,
   0xF7537E82, 0xBD3AF235, 0x2AD7D2BB, 0xEB86D391]

/-- The rotation amounts, a list of four for each round (R172). -/
def md5Rotations : List (List Nat) := [[7, 12, 17, 22], [5, 9, 14, 20], [4, 11, 16, 23], [6, 10, 15, 21]]

/-- `S[i]`: entry `i mod 4` of the list of round `i div 16` (R172). -/
def md5S (i : Nat) : Nat := (md5Rotations.getD (i / 16) []).getD (i % 4) 0

/-- `K(i)`: the index of the message word that step `i` uses (R173). -/
def md5K (i : Nat) : Nat :=
  if i < 16 then i
  else if i < 32 then (5 * i + 1) % 16
  else if i < 48 then (3 * i + 5) % 16
  else 7 * i % 16

/-! ### Compression -/

/-- The four working registers of the compression (R174). -/
structure Md5Regs where
  /-- Register `a`. -/
  a : Word
  /-- Register `b`. -/
  b : Word
  /-- Register `c`. -/
  c : Word
  /-- Register `d`. -/
  d : Word
  deriving DecidableEq, Repr

/-- Step `i` over the message words `x`; the four registers rotate roles (R174). -/
def md5Step (x : List Word) (r : Md5Regs) (i : Nat) : Md5Regs :=
  let t := r.a + md5Mix i r.b r.c r.d + x.getD (md5K i) 0#32 + md5T.getD i 0#32
  { a := r.d, b := r.b + rotl32 t (md5S i), c := r.b, d := r.c }

/-- The working registers after the first `n` steps over `blk`, started from `h` (R174). -/
def md5Steps (n : Nat) (h : Vector Word 4) (blk : List Byte) : Md5Regs :=
  (List.range n).foldl (md5Step ((List.range 16).map (md5Word blk)))
    { a := h[0], b := h[1], c := h[2], d := h[3] }

/-- `MD5Block(h, blk)`: 64 steps, then the sum modulo 2^32 (R174). -/
def md5Block (h : Vector Word 4) (blk : List Byte) : Vector Word 4 :=
  let r := md5Steps 64 h blk
  #v[h[0] + r.a, h[1] + r.b, h[2] + r.c, h[3] + r.d]

/-- The final hash words of a message, whatever its length: `MD5Block` over the padded message from `IV` (R175). -/
def md5Hash (m : List Byte) : Vector Word 4 := (blocks64 (md5Pad m)).foldl md5Block md5Iv

/-- The digest of final hash words: the four words serialised little-endian (R175). -/
def md5Bytes (h : Vector Word 4) : List Byte := le32 h[0] ++ le32 h[1] ++ le32 h[2] ++ le32 h[3]

/-- The 16 bytes of the digest of a message that is not too long (R175). -/
def md5Sum (m : List Byte) : List Byte := md5Bytes (md5Hash m)

/-! ### The commands -/

/-- `MD5.INIT` (R181). -/
def execMd5Init (s : State) : Host.Outcome State Fault Refusal :=
  .next (s.conclude (.ok { s with h := md5Iv }))

/-- `MD5.BLOCK`: `BINLEN` is not consulted, nothing is padded (R182). -/
def execMd5Block (s : State) : Host.Outcome State Fault Refusal :=
  .next (s.conclude (.ok { s with h := md5Block s.h s.blockInput }))

/-- `BINLEN >= 2^29` (R166, R183; 60_exceptions.md R273). -/
def State.requireMd5Length (s : State) : Except CmdFault Unit :=
  if s.binlen.toNat ≥ Config.md5Limit then .error .invalidInput else .ok ()

/-- The pseudocode of `MD5.DIGEST`; `InvalidInput` is tested before the capacity (R183). -/
def md5DigestBody (s : State) : Except CmdFault State := do
  s.requireMd5Length
  let m ← s.binInput
  return { s with h := md5Hash m }.emitBytes (md5Sum m)

/-- `MD5.DIGEST` (R183). -/
def execMd5Digest (s : State) : Host.Outcome State Fault Refusal := .next (s.conclude (md5DigestBody s))

end Sys2Proof.Machine
end

