-- ==== Sys2Proof/Machine/Sha1.lean ====
section
/-! DEFINITION. The parameter `SHA1` (spec 00_scope.md R13) and its default instantiation (47_sha1_collaborator.md R260 to
R262). It has no command. -/

namespace Sys2Proof.Machine

/-- The padded message: 0x80, zero bytes, and `8n` as a 64-bit integer, most significant byte first (R261). DESIGN CHOICE
(log entry 15): where `8n` does not fit 64 bits, which R261 leaves open and no command reaches, it is taken modulo 2^64. -/
def sha1Pad (m : List Byte) : List Byte :=
  m ++ [0x80#8] ++ List.replicate ((119 - m.length % 64) % 64) 0x00#8
    ++ be32 (BitVec.ofNat 32 (8 * m.length / 2 ^ 32)) ++ be32 (BitVec.ofNat 32 (8 * m.length))

/-- Word `j` of a block, big-endian (R261). -/
def sha1Word (blk : List Byte) (j : Nat) : Word :=
  ofBe32 (blk.getD (4 * j) 0#8) (blk.getD (4 * j + 1) 0#8) (blk.getD (4 * j + 2) 0#8) (blk.getD (4 * j + 3) 0#8)

/-- One turn of the loop that extends the sixteen words of a block: `W[t]` for `t >= 16` (R262). -/
def sha1Extend (w : List Word) (t : Nat) : List Word :=
  w ++ [rotl32 (w.getD (t - 3) 0#32 ^^^ w.getD (t - 8) 0#32 ^^^ w.getD (t - 14) 0#32 ^^^ w.getD (t - 16) 0#32) 1]

/-- `W[0..79]` of a block (R262). -/
def sha1Words (blk : List Byte) : List Word :=
  (List.range' 16 64).foldl sha1Extend ((List.range 16).map (sha1Word blk))

/-- The five hash words, and the five working registers (R262). -/
structure Sha1Regs where
  /-- `h0`, or register `a`. -/
  a : Word
  /-- `h1`, or register `b`. -/
  b : Word
  /-- `h2`, or register `c`. -/
  c : Word
  /-- `h3`, or register `d`. -/
  d : Word
  /-- `h4`, or register `e`. -/
  e : Word
  deriving DecidableEq, Repr

/-- The mixing function of step `t` (R262). -/
def sha1Mix (t : Nat) (b c d : Word) : Word :=
  if t ≤ 19 then (b &&& c) ||| (~~~b &&& d)
  else if t ≤ 39 then b ^^^ c ^^^ d
  else if t ≤ 59 then (b &&& c) ||| (b &&& d) ||| (c &&& d)
  else b ^^^ c ^^^ d

/-- The constant of step `t` (R262). -/
def sha1K (t : Nat) : Word :=
  if t ≤ 19 then 0x5A827999#32
  else if t ≤ 39 then 0x6ED9EBA1#32
  else if t ≤ 59 then 0x8F1BBCDC#32
  else 0xCA62C1D6#32

/-- Step `t` over the words `w` (R262). -/
def sha1Step (w : List Word) (r : Sha1Regs) (t : Nat) : Sha1Regs :=
  { a := rotl32 r.a 5 + sha1Mix t r.b r.c r.d + r.e + sha1K t + w.getD t 0#32,
    b := r.a, c := rotl32 r.b 30, d := r.c, e := r.d }

/-- One block into the hash words (R262). -/
def sha1Block (h : Sha1Regs) (blk : List Byte) : Sha1Regs :=
  let r := (List.range 80).foldl (sha1Step (sha1Words blk)) h
  { a := h.a + r.a, b := h.b + r.b, c := h.c + r.c, d := h.d + r.d, e := h.e + r.e }

/-- The initial hash words (R262). -/
def sha1Iv : Sha1Regs :=
  { a := 0x67452301#32, b := 0xEFCDAB89#32, c := 0x98BADCFE#32, d := 0x10325476#32, e := 0xC3D2E1F0#32 }

/-- The default `SHA1(M)`: 20 bytes (R262). -/
def sha1Standard (m : List Byte) : Vector Byte 20 :=
  let h := (blocks64 (sha1Pad m)).foldl sha1Block sha1Iv
  padTo 20 (be32 h.a ++ be32 h.b ++ be32 h.c ++ be32 h.d ++ be32 h.e)

/-- The function the parameter `SHA1` stands for in an instance (R13, R264). -/
def sha1Of : Sha1Unit → List Byte → Vector Byte 20
  | .standard, m => sha1Standard m
  | .external k, m => Config.externalSha1 k m

end Sys2Proof.Machine
end

