-- ==== Sys2Proof/Machine/Utf8.lean ====
section
/-! DEFINITION. The UTF-8 codec and the commands `UTF8.ENC`, `UTF8.DEC` (spec 45_codecs.md R200 to R206). -/

namespace Sys2Proof.Machine

/-! ### Encoding -/

/-- A continuation byte `10xxxxxx` with payload `p` (R201). -/
def utf8Continuation (p : BitVec 6) : Byte := 0b10#2 ++ p

/-- The bytes of one code point, first to last; at 0x110000 and above there are none (R201). -/
def utf8EncOne (c : Word) : Except CmdFault (List Byte) :=
  if c < 0x80#32 then .ok [c.extractLsb' 0 8]
  else if c < 0x800#32 then .ok [0b110#3 ++ c.extractLsb' 6 5, utf8Continuation (c.extractLsb' 0 6)]
  else if c < 0x10000#32 then
    .ok [0b1110#4 ++ c.extractLsb' 12 4, utf8Continuation (c.extractLsb' 6 6), utf8Continuation (c.extractLsb' 0 6)]
  else if c < 0x110000#32 then
    .ok [0b11110#5 ++ c.extractLsb' 18 3, utf8Continuation (c.extractLsb' 12 6),
      utf8Continuation (c.extractLsb' 6 6), utf8Continuation (c.extractLsb' 0 6)]
  else .error .invalidCharacterCode

/-- `Utf8Enc(t)`: the concatenation over all code points; a failure is of the whole call (R201). -/
def utf8Encode : List Word → Except CmdFault (List Byte)
  | [] => .ok []
  | c :: t => do
    let b ← utf8EncOne c
    let bs ← utf8Encode t
    return b ++ bs

/-! ### Decoding -/

/-- What a lead byte says: how many continuation bytes follow, its payload bits, and the least code point that may be
encoded in so many bytes. None for a byte that fits no lead pattern (R204). -/
def utf8Lead (x : Byte) : Option (Nat × Word × Word) :=
  if x ≤ 0x7F#8 then some (0, x.setWidth 32, 0x0#32)
  else if 0xC0#8 ≤ x ∧ x ≤ 0xDF#8 then some (1, (x &&& 0x1F#8).setWidth 32, 0x80#32)
  else if 0xE0#8 ≤ x ∧ x ≤ 0xEF#8 then some (2, (x &&& 0x0F#8).setWidth 32, 0x800#32)
  else if 0xF0#8 ≤ x ∧ x ≤ 0xF7#8 then some (3, (x &&& 0x07#8).setWidth 32, 0x10000#32)
  else none

/-- Read `k` continuation bytes onto the payload `c`: the code point and the bytes left. None where the input ends or a
byte is outside 0x80..0xBF (R204). -/
def utf8Continue : Nat → Word → List Byte → Option (Word × List Byte)
  | 0, c, b => some (c, b)
  | _ + 1, _, [] => none
  | k + 1, c, y :: b =>
    if y < 0x80#8 ∨ y > 0xBF#8 then none
    else utf8Continue k ((c <<< 6) ||| (y &&& 0x3F#8).setWidth 32) b

/-- The first code point of a byte sequence that is not empty, and the bytes left; none where it is malformed, overlong
or out of range (R204). -/
def utf8DecOne (x : Byte) (b : List Byte) : Option (Word × List Byte) :=
  match utf8Lead x with
  | none => none
  | some (k, c, lo) =>
    match utf8Continue k c b with
    | none => none
    | some (d, rest) => if d < lo ∨ d ≥ 0x110000#32 then none else some (d, rest)

/-- The loop of `Utf8Dec`, at most `n` code points; each takes a byte or more, so `n` = the number of bytes is enough
(R204). -/
def utf8DecLoop : Nat → List Byte → Except CmdFault (List Word)
  | _, [] => .ok []
  | 0, _ :: _ => .error .invalidUtf8Sequence
  | n + 1, x :: b =>
    match utf8DecOne x b with
    | none => .error .invalidUtf8Sequence
    | some (c, rest) => do
      let t ← utf8DecLoop n rest
      return c :: t

/-- `Utf8Dec(b)` (R204). -/
def utf8Decode (b : List Byte) : Except CmdFault (List Word) := utf8DecLoop b.length b

/-! ### The commands -/

/-- The pseudocode of `UTF8.ENC` (R203). -/
def utf8EncBody (s : State) : Except CmdFault State := do
  let t ← s.textInput
  let out ← utf8Encode t
  guardFits out.length s.params.bufBytes
  return s.emitBytes out

/-- `UTF8.ENC` (R203). -/
def execUtf8Enc (s : State) : Host.Outcome State Fault Refusal := .next (s.conclude (utf8EncBody s))

/-- The pseudocode of `UTF8.DEC` (R206). -/
def utf8DecBody (s : State) : Except CmdFault State := do
  let b ← s.binInput
  let out ← utf8Decode b
  guardFits out.length s.params.bufCps
  return s.emitText out

/-- `UTF8.DEC` (R206). -/
def execUtf8Dec (s : State) : Host.Outcome State Fault Refusal := .next (s.conclude (utf8DecBody s))

end Sys2Proof.Machine
end

