-- ==== Sys2Proof/Machine/Facade.lean ====
section
/-! DEFINITION. The Password Encryption Façade: `PW.CONSTRUCT`, `PW.ENCRYPT`, `PW.DECRYPT`, `PW.GETDIGEST`,
`PW.GETPASSWORD` (spec 46_facade.md R230 to R243). It works on scratch: no façade command reads or writes `KEY`, `KS`,
`STATUS.KSV`, `BLK`, `CTRBLK`, `H`, `BIN` or `BOUT`. -/

namespace Sys2Proof.Machine

/-! ### Construction -/

/-- `HexEnc` "as bytes": each character is the byte of the same value (R218, R233). -/
def hexBytes (b : List Byte) : List Byte := (hexEncode b).map (fun c => c.setWidth 8)

/-- `CreatePasswordDigest(pb)`, 32 ASCII bytes (R233). No MD5 call of it can be too long (R233, 60_exceptions.md R273). -/
def createPasswordDigest (u : Sha1Unit) (pb : List Byte) : List Byte :=
  let s1 := hexBytes (md5Sum pb)
  let s2 := hexBytes (sha1Of u s1).toList
  hexBytes (md5Sum (s2 ++ pb))

/-- The rounds of a 32-byte key: the façade's cipher "is always the 256-bit, 14-round one" (R234). -/
def facadeRounds : Nat := 14

/-- The schedule of a 32-byte key (R234). -/
def facadeSchedule (seed : List Byte) : Schedule := padTo 240 (keyExpansion seed 8)

/-- `CreateKeySchedule(pb)`: the seed is the password bytes cut or zero-padded to 32; its first half, encrypted under its
own schedule, becomes both halves of the key (R234). -/
def createKeySchedule (pb : List Byte) : Schedule :=
  let seed : Vector Byte 32 := padTo 32 pb
  let r := cipher (padTo 16 (seed.toList.take 16)) (facadeSchedule seed.toList) facadeRounds
  facadeSchedule (r.toList ++ r.toList)

/-- The pseudocode of `PW.CONSTRUCT` (R236). Elements of `PW` at `PWLEN` and above keep their old content. -/
def constructBody (s : State) : Except CmdFault State := do
  let t ← s.textInput
  let pb ← utf8Encode t
  return { s with
    pw := s.pw.writePrefix t, pwlen := t.length,
    digest := padTo 32 (createPasswordDigest s.params.sha1 pb),
    pks := createKeySchedule pb,
    objv := true }

/-- `PW.CONSTRUCT` (R236). -/
def execPwConstruct (s : State) : Host.Outcome State Fault Refusal := .next (s.conclude (constructBody s))

/-! ### Encryption and decryption -/

/-- `MakeNonce(t_sec, t_ms)`: big-endian seconds, then the low 8 bits of the millisecond value four times (R237). -/
def makeNonce (t : TimeSample) : List Byte := be32 t.sec ++ List.replicate 4 (t.ms.extractLsb' 0 8)

/-- The local Counter Block of a nonce: the nonce, then eight zero bytes (R238, R240). -/
def nonceBlock (nonce : List Byte) : Block := padTo 16 (nonce.take 8)

/-- `nonce ++ ciphertextBytes` for plaintext bytes `pt` (R238). -/
def sealBytes (pks : Schedule) (nonce pt : List Byte) : List Byte :=
  nonce ++ (ctrXform (nonceBlock nonce) pt pks facadeRounds).1

/-- The pseudocode of `PW.ENCRYPT` after the ports gave the sample `t` (R238). -/
def encryptBody (t : TimeSample) (s : State) : Except CmdFault State := do
  s.requireObject
  let text ← s.textInput
  let pt ← utf8Encode text
  guardFits (4 * ((8 + pt.length + 2) / 3)) s.params.bufCps
  return s.emitText (b64Encode (sealBytes s.pks (makeNonce t) pt))

/-- `PW.ENCRYPT` (R238). The sample is taken once, whether or not the command faults (R43). -/
def execPwEncrypt (s : State) : Host.Outcome State Fault Refusal :=
  .next (s.takeSample.conclude (encryptBody s.timeSample s.takeSample))

/-- The decoded bytes of a ciphertext, at least the 8 of a nonce (R240; 60_exceptions.md R277). -/
def requireNonce (raw : List Byte) : Except CmdFault Unit :=
  if raw.length < 8 then .error .decodeFailure else .ok ()

/-- The pseudocode of `PW.DECRYPT` (R240). -/
def decryptBody (s : State) : Except CmdFault State := do
  s.requireObject
  let text ← s.textInput
  let raw ← b64Decode text
  requireNonce raw
  let out ← utf8Decode (ctrXform (nonceBlock raw) (raw.drop 8) s.pks facadeRounds).1
  return s.emitText out

/-- `PW.DECRYPT` (R240). -/
def execPwDecrypt (s : State) : Host.Outcome State Fault Refusal := .next (s.conclude (decryptBody s))

/-! ### Accessors -/

/-- The pseudocode of `PW.GETDIGEST`: each byte zero-extended to a code point (R242). -/
def getDigestBody (s : State) : Except CmdFault State := do
  s.requireObject
  return s.emitText (s.digest.toList.map (fun b => b.setWidth 32))

/-- `PW.GETDIGEST` (R242). -/
def execPwGetdigest (s : State) : Host.Outcome State Fault Refusal := .next (s.conclude (getDigestBody s))

/-- The pseudocode of `PW.GETPASSWORD` (R243). -/
def getPasswordBody (s : State) : Except CmdFault State := do
  s.requireObject
  return s.emitText s.storedPassword

/-- `PW.GETPASSWORD` (R243). -/
def execPwGetpassword (s : State) : Host.Outcome State Fault Refusal := .next (s.conclude (getPasswordBody s))

end Sys2Proof.Machine
end

