-- ==== Sys2Proof/Machine/System.lean ====
section
/-! DEFINITION. The housekeeping commands `NOP`, `CLRERR` (spec 60_exceptions.md R284, R285) and `SRESET`
(70_reset_and_hazards.md R302). -/

namespace Sys2Proof.Machine

/-- `NOP`: `ERR <- 0x00`, `ERRF` is not cleared (R284). -/
def execNop (s : State) : Host.Outcome State Fault Refusal := .next (s.conclude (.ok s))

/-- `CLRERR`: `STATUS.ERRF <- 0`, `ERR <- 0x00` (R285). -/
def execClrerr (s : State) : Host.Outcome State Fault Refusal := .next (s.conclude (.ok s.clearFault))

/-- `SRESET`: every location in its reset value, except `CMD` (R302). -/
def execSreset (s : State) : Host.Outcome State Fault Refusal :=
  .next (s.conclude (.ok { s.hardReset with cmd := s.cmd }))

end Sys2Proof.Machine
end

