-- ==== Sys2Proof/Machine/Dispatch.lean ====
section
/-! DEFINITION. The meaning of every command, one arm per constructor of `Instr` (spec 30_encoding.md R94). -/

namespace Sys2Proof.Machine

def exec (i : Instr) (s : State) : Host.Outcome State Fault Refusal :=
  match i with
  | .nop => Sys2Proof.Machine.execNop s
  | .aesKeyexp ksz => Sys2Proof.Machine.execAesKeyexp ksz s
  | .aesCipher => Sys2Proof.Machine.execAesCipher s
  | .aesInvcipher => Sys2Proof.Machine.execAesInvcipher s
  | .md5Init => Sys2Proof.Machine.execMd5Init s
  | .md5Block => Sys2Proof.Machine.execMd5Block s
  | .md5Digest => Sys2Proof.Machine.execMd5Digest s
  | .ctrInc => Sys2Proof.Machine.execCtrInc s
  | .ctrXform => Sys2Proof.Machine.execCtrXform s
  | .utf8Enc => Sys2Proof.Machine.execUtf8Enc s
  | .utf8Dec => Sys2Proof.Machine.execUtf8Dec s
  | .b64Enc => Sys2Proof.Machine.execB64Enc s
  | .b64Dec => Sys2Proof.Machine.execB64Dec s
  | .hexEnc => Sys2Proof.Machine.execHexEnc s
  | .pwConstruct => Sys2Proof.Machine.execPwConstruct s
  | .pwEncrypt => Sys2Proof.Machine.execPwEncrypt s
  | .pwDecrypt => Sys2Proof.Machine.execPwDecrypt s
  | .pwGetdigest => Sys2Proof.Machine.execPwGetdigest s
  | .pwGetpassword => Sys2Proof.Machine.execPwGetpassword s
  | .clrerr => Sys2Proof.Machine.execClrerr s
  | .sreset => Sys2Proof.Machine.execSreset s

end Sys2Proof.Machine
end

