-- ==== Sys2Proof/Machine/Sequencer.lean ====
section
/-! DEFINITION. The sequencer: what one event of the outside world does to CORE (spec 10_state.md R20, R24;
20_memory.md R70; 30_encoding.md R90). A command runs to its end, or to its fault, inside the write of `CMD`. -/

namespace Sys2Proof.Machine

/-- The host's write of `CMD`, before the command runs: the word is stored and the write completes normally, whether or
not the command faults (R24; 60_exceptions.md R280). -/
def State.beginCommand (s : State) (c : Word) : State := { s with cmd := c, response := .written }

/-- The write of `c` to `CMD`: store it, decode it, run the command, or fault with `IllegalCommand` (R90, R95). -/
def runCommand (s : State) (c : Word) : Host.Outcome State Fault Refusal :=
  match decode c with
  | some i => exec i (s.beginCommand c)
  | none => .next ((s.beginCommand c).raise .illegalCommand)

/-- One event of the outside world, one indivisible step (R70): a bus access, a reset, which falls between steps
(70_reset_and_hazards.md R300, R301), or the platform's setting of the time ports (30_encoding.md R97). -/
def serve (s : State) (e : HostEvent) : Host.Outcome State Fault Refusal :=
  match e with
  | .readByte addr => .next (s.hostReadByte addr)
  | .readWord addr => .next (s.hostReadWord addr)
  | .writeByte addr v => .next (s.hostWriteByte addr v)
  | .writeWord addr v => if addr = cmdOffset then runCommand s v else .next (s.hostWriteWord addr v)
  | .hwReset => .next (s.hardReset.respond .idle)
  | .driveTime t => .next (s.driveTime t)

/-- The next event is taken from the front of the list. -/
def State.dropEvent (s : State) : State := { s with events := s.events.tail }

/-- The next step: serve the first pending event. With none pending "CORE is idle and holds all state"
(60_exceptions.md R294). -/
def nextStep (s : State) : Host.Outcome State Fault Refusal :=
  match s.events with
  | [] => .next s
  | e :: _ => serve s.dropEvent e

/-- The state in which the next event is the write of the command word with bits `w`, `nbits` of them, to `CMD`; every bit
from `nbits` on is zero. -/
def State.placeCommand (s : State) (nbits w : Nat) : State :=
  { s with events := .writeWord cmdOffset (BitVec.ofNat 32 (w % 2 ^ nbits)) :: s.events }

end Sys2Proof.Machine
end

