-- ==== Sys2Proof/Machine/Script.lean ====
section
/-! DEFINITION. Host scripts, the spec's syntax for test vectors and programs (spec 30_encoding.md R97, R98): each line is
a host access, a comparison of what a read answers, or what the platform drives on the time ports. -/

namespace Sys2Proof.Machine

/-- A primitive line (R97). -/
inductive ScriptLine where
  /-- `wr32 REG, v`, for element `i` of a word array. -/
  | wr32 (reg : WordArr) (i : Nat) (v : Word)
  /-- `wr8 ARR[i], v`. -/
  | wr8 (arr : ByteArr) (i : Nat) (v : Byte)
  /-- `rd32 REG`, with `= v` where the value read is compared. -/
  | rd32 (reg : WordArr) (i : Nat) (expected : Option Word)
  /-- `rd8 ARR[i]`, with `= v` where the value read is compared. -/
  | rd8 (arr : ByteArr) (i : Nat) (expected : Option Byte)
  /-- `cmd MNEMONIC`, and `cmd AES.KEYEXP k`. -/
  | cmd (command : Instr)
  /-- `cmd.raw v`. -/
  | cmdRaw (v : Word)
  /-- `time t_sec = a, t_ms = b`: no host step. -/
  | time (sample : TimeSample)
  deriving DecidableEq, Repr

/-- The offset of element `i` of a word array, by its row of the address map; the bases do not depend on the capacities
(20_memory.md R62). -/
def wordOffset (k : WordArr) (i : Nat) : Offset :=
  BitVec.ofNat 20 (((wordRows Config.defaultParams).find? (fun r => r.array == k)).elim 0 (fun r => r.base) + 4 * i)

/-- The offset of element `i` of a byte array (20_memory.md R62). -/
def byteOffset (k : ByteArr) (i : Nat) : Offset :=
  BitVec.ofNat 20 (((byteRows Config.defaultParams).find? (fun r => r.array == k)).elim 0 (fun r => r.base) + i)

/-- What a line is to CORE: the host's access, or, for a `time` line, which is no host step, the platform's setting of the
ports for the next `PW.ENCRYPT` (R97; log entry 14). -/
def ScriptLine.event : ScriptLine → HostEvent
  | .wr32 k i v => .writeWord (wordOffset k i) v
  | .wr8 k i v => .writeByte (byteOffset k i) v
  | .rd32 k i _ => .readWord (wordOffset k i)
  | .rd8 k i _ => .readByte (byteOffset k i)
  | .cmd i => .writeWord cmdOffset (encode i)
  | .cmdRaw v => .writeWord cmdOffset v
  | .time t => .driveTime t

/-- The answer of the bus a line compares with, where it compares (R97). -/
def ScriptLine.expected : ScriptLine → Option BusResponse
  | .rd32 _ _ e => e.map BusResponse.word
  | .rd8 _ _ e => e.map BusResponse.byte
  | .wr32 _ _ _ | .wr8 _ _ _ | .cmd _ | .cmdRaw _ | .time _ => none

/-- A script as what the outside world does next, after what is already pending, its lines in order (R97, "one step per
line, executed top to bottom"). -/
def State.loadScript (s : State) (lines : List ScriptLine) : State :=
  { s with events := s.events ++ lines.map ScriptLine.event }

/-- One line, executed at once; none where a comparison fails (R97). -/
def runLine (s : State) (l : ScriptLine) : Option State :=
  match serve s l.event with
  | .next t => if l.expected.all (fun r => t.response == r) then some t else none
  | .fault _ => none
  | .refused _ => none

/-- A script, executed top to bottom; none where a comparison fails (R97). -/
def runScript : State → List ScriptLine → Option State
  | s, [] => some s
  | s, l :: ls => (runLine s l).bind (fun t => runScript t ls)

/-- `ld8 ARR, hexstring` (R98). -/
def ld8 (arr : ByteArr) (bytes : List Byte) : List ScriptLine :=
  bytes.zipIdx.map (fun b => .wr8 arr b.2 b.1)

/-- `ldbytes hexstring` (R98). -/
def ldbytes (bytes : List Byte) : List ScriptLine :=
  ld8 .bin bytes ++ [.wr32 .binlen 0 (BitVec.ofNat 32 bytes.length)]

/-- `ldtext "string"`, for its code points (R98). -/
def ldtext (text : List Word) : List ScriptLine :=
  text.zipIdx.map (fun c => .wr32 .tin c.2 c.1) ++ [.wr32 .tinlen 0 (BitVec.ofNat 32 text.length)]

/-- `expect8 ARR, hexstring` (R98). -/
def expect8 (arr : ByteArr) (bytes : List Byte) : List ScriptLine :=
  bytes.zipIdx.map (fun b => .rd8 arr b.2 (some b.1))

/-- `expecttext "string"`, for its code points (R98). -/
def expecttext (text : List Word) : List ScriptLine :=
  .rd32 .toutlen 0 (some (BitVec.ofNat 32 text.length)) :: text.zipIdx.map (fun c => .rd32 .tout c.2 (some c.1))

/-- The pseudo-lines `AES.KEYEXP128`, `AES.KEYEXP192`, `AES.KEYEXP256` (R98). -/
def aesKeyexp128 : ScriptLine := .cmd (.aesKeyexp 0#2)
/-- See `aesKeyexp128`. -/
def aesKeyexp192 : ScriptLine := .cmd (.aesKeyexp 1#2)
/-- See `aesKeyexp128`. -/
def aesKeyexp256 : ScriptLine := .cmd (.aesKeyexp 2#2)

end Sys2Proof.Machine
end

