-- ==== Sys2Proof/Safety.lean ====
section
/-! DEFINITION. What a safe run is, in the terms the statements use: the invariant of CORE's state (spec 10_state.md), which
command may write what (R47), and which command may raise which fault (60_exceptions.md R282). -/

namespace Sys2Proof.Machine

/-! ### The invariant -/

/-- Every listed element of a memory has an index below `n`. -/
def Memory.Within {w : Nat} (m : Memory w) (n : Nat) : Prop := ∀ c ∈ m, c.1 < n

/-- The five memories are in canonical form. -/
def State.MemoriesCanonical (s : State) : Prop :=
  s.bin.wf ∧ s.bout.wf ∧ s.tin.wf ∧ s.tout.wf ∧ s.pw.wf

/-- Nothing is stored beyond the capacity of a buffer (R36, R37, R40). -/
def State.MemoriesWithin (s : State) : Prop :=
  s.bin.Within s.params.bufBytes ∧ s.bout.Within s.params.bufBytes ∧
  s.tin.Within s.params.bufCps ∧ s.tout.Within s.params.bufCps ∧ s.pw.Within s.params.bufCps

/-- `BOUTLEN` is "Always `≤ BUF_BYTES`" (R28), `TOUTLEN` "Always `≤ BUF_CPS`" (R30), `PWLEN` "an integer `0 .. BUF_CPS`"
(R40). -/
def State.LengthsFit (s : State) : Prop :=
  s.boutlen.toNat ≤ s.params.bufBytes ∧ s.toutlen.toNat ≤ s.params.bufCps ∧ s.pwlen ≤ s.params.bufCps

/-- `NR` is "10, 12 or 14 when `KSV = 1`, and 0 when `KSV = 0`" (R25). -/
def State.RoundsMatchFlag (s : State) : Prop :=
  (s.ksv = false ∧ s.nr = 0#4) ∨ (s.ksv = true ∧ (s.nr = 10#4 ∨ s.nr = 12#4 ∨ s.nr = 14#4))

/-- While a schedule is valid, the bytes of `KS` from `16×(Nr+1)` on are 0x00 (R33). -/
def State.ScheduleTailZero (s : State) : Prop :=
  s.ksv = true → ∀ j, 16 * (s.nr.toNat + 1) ≤ j → s.ks.toList.getD j 0#8 = 0#8

/-- Every value in `TOUT` is a code point below 0x110000 (R37), and so is every element of `PW`. -/
def State.TextIsText (s : State) : Prop :=
  (∀ i, s.tout.read i < 0x110000#32) ∧ (∀ i, s.pw.read i < 0x110000#32)

/-- A byte is one of `0`..`9`, `a`..`f` (R41). -/
def isHexByte (b : Byte) : Prop := (0x30#8 ≤ b ∧ b ≤ 0x39#8) ∨ (0x61#8 ≤ b ∧ b ≤ 0x66#8)

/-- The digest of an object is 32 lowercase hex characters (R41). -/
def State.DigestIsHex (s : State) : Prop := s.objv = true → ∀ b ∈ s.digest.toList, isHexByte b

/-- `ERR[7:0]` is 0x00 or the code of a fault: "Every other value of `ERR[7:0]` never occurs" (60_exceptions.md R271). -/
def State.ErrIsCode (s : State) : Prop := s.err = 0x00#8 ∨ ∃ f, s.err = faultCode f

/-- Where the most recent command faulted, `ERRF` is set (R25, R26). -/
def State.FaultIsSticky (s : State) : Prop := s.err ≠ 0x00#8 → s.errf = true

/-- The schedule of an object begins with the same 16 bytes twice, `r ++ r` (46_facade.md R234). -/
def State.ObjectKeyDoubled (s : State) : Prop :=
  s.objv = true → s.pks.toList.take 16 = (s.pks.toList.drop 16).take 16

/-- The invariant of CORE's state. -/
structure State.Inv (s : State) : Prop where
  /-- The capacities are in their ranges (R11, R12). -/
  legal : s.params.Legal
  /-- The memories are canonical. -/
  canonical : s.MemoriesCanonical
  /-- Nothing stands beyond a capacity. -/
  within : s.MemoriesWithin
  /-- The output lengths and `PWLEN` fit. -/
  lengths : s.LengthsFit
  /-- `NR` matches `KSV`. -/
  rounds : s.RoundsMatchFlag
  /-- The tail of a valid schedule is zero. -/
  tail : s.ScheduleTailZero
  /-- `TOUT` and `PW` hold code points. -/
  text : s.TextIsText
  /-- `DIGEST` holds hex characters. -/
  digestHex : s.DigestIsHex
  /-- `ERR` holds a known code. -/
  errCode : s.ErrIsCode
  /-- A recorded fault is sticky. -/
  sticky : s.FaultIsSticky
  /-- The object's key is doubled. -/
  doubled : s.ObjectKeyDoubled

/-! ### The write matrix (R47) -/

/-- The byte arrays a command may write (R47). -/
def bytesWritten : Instr → List ByteArr
  | .nop | .clrerr => []
  | .aesKeyexp _ => [.ks]
  | .aesCipher | .aesInvcipher => [.blk]
  | .md5Init | .md5Block => []
  | .md5Digest => [.bout]
  | .ctrInc => [.ctrblk]
  | .ctrXform => [.ctrblk, .bout]
  | .utf8Enc | .b64Dec => [.bout]
  | .utf8Dec | .b64Enc | .hexEnc => []
  | .pwConstruct | .pwEncrypt | .pwDecrypt | .pwGetdigest | .pwGetpassword => []
  | .sreset => [.key, .blk, .ctrblk, .ks, .bin, .bout]

/-- The word arrays a command may write, beside `ERR` and `STATUS` (R47). -/
def wordsWritten : Instr → List WordArr
  | .nop | .clrerr => []
  | .aesKeyexp _ | .aesCipher | .aesInvcipher => []
  | .md5Init | .md5Block => [.h]
  | .md5Digest => [.h, .boutlen]
  | .ctrInc => []
  | .ctrXform => [.boutlen]
  | .utf8Enc | .b64Dec => [.boutlen]
  | .utf8Dec | .b64Enc | .hexEnc => [.tout, .toutlen]
  | .pwConstruct => []
  | .pwEncrypt | .pwDecrypt | .pwGetdigest | .pwGetpassword => [.tout, .toutlen]
  | .sreset => [.binlen, .boutlen, .tinlen, .toutlen, .h, .tin, .tout]

/-- The commands that may change the schedule's flags `KSV` and `NR` (R25, R47). -/
def writesScheduleFlags : Instr → Bool
  | .aesKeyexp _ | .sreset => true
  | .nop | .clrerr | .aesCipher | .aesInvcipher | .md5Init | .md5Block | .md5Digest | .ctrInc | .ctrXform
  | .utf8Enc | .utf8Dec | .b64Enc | .b64Dec | .hexEnc | .pwConstruct | .pwEncrypt | .pwDecrypt | .pwGetdigest
  | .pwGetpassword => false

/-- The commands that may change the Encryption Object or `OBJV` (R38, R47). -/
def writesObject : Instr → Bool
  | .pwConstruct | .sreset => true
  | .nop | .clrerr | .aesKeyexp _ | .aesCipher | .aesInvcipher | .md5Init | .md5Block | .md5Digest | .ctrInc
  | .ctrXform | .utf8Enc | .utf8Dec | .b64Enc | .b64Dec | .hexEnc | .pwEncrypt | .pwDecrypt | .pwGetdigest
  | .pwGetpassword => false

/-- The commands that clear `ERRF` (R25). -/
def clearsErrf : Instr → Bool
  | .clrerr | .sreset => true
  | .nop | .aesKeyexp _ | .aesCipher | .aesInvcipher | .md5Init | .md5Block | .md5Digest | .ctrInc
  | .ctrXform | .utf8Enc | .utf8Dec | .b64Enc | .b64Dec | .hexEnc | .pwConstruct | .pwEncrypt | .pwDecrypt
  | .pwGetdigest | .pwGetpassword => false

/-- The five façade commands and `SRESET`, the only ones that touch the Encryption Object (R47). -/
def touchesObject : Instr → Bool
  | .pwConstruct | .pwEncrypt | .pwDecrypt | .pwGetdigest | .pwGetpassword | .sreset => true
  | .nop | .clrerr | .aesKeyexp _ | .aesCipher | .aesInvcipher | .md5Init | .md5Block | .md5Digest | .ctrInc
  | .ctrXform | .utf8Enc | .utf8Dec | .b64Enc | .b64Dec | .hexEnc => false

/-- Two states have the same Encryption Object (R38). -/
def State.SameObject (s t : State) : Prop :=
  t.objv = s.objv ∧ t.pw = s.pw ∧ t.pwlen = s.pwlen ∧ t.digest = s.digest ∧ t.pks = s.pks

/-- `s` with another Encryption Object, and the same `OBJV`. -/
def State.withObject (s : State) (pw : Memory 32) (pwlen : Nat) (digest : Vector Byte 32) (pks : Schedule) : State :=
  { s with pw := pw, pwlen := pwlen, digest := digest, pks := pks }

/-- `s` with other contents in the registers and buffers of the raw commands: `KEY`, `KS`, `KSV`, `NR`, `BLK`, `CTRBLK`,
`H`, `BIN`, `BINLEN`, `BOUT`, `BOUTLEN` of `r` (46_facade.md, opening). -/
def State.withRaw (s r : State) : State :=
  { s with
    key := r.key, ks := r.ks, ksv := r.ksv, nr := r.nr, blk := r.blk, ctrblk := r.ctrblk, h := r.h,
    bin := r.bin, binlen := r.binlen, bout := r.bout, boutlen := r.boutlen }

/-! ### The fault matrix (R282) -/

/-- The faults a decoded command can raise (R282). -/
def faultsOf : Instr → List CmdFault
  | .nop | .clrerr | .sreset => []
  | .aesKeyexp _ => []
  | .aesCipher | .aesInvcipher => [.noSchedule]
  | .md5Init | .md5Block => []
  | .md5Digest => [.invalidInput, .bufferOverflow]
  | .ctrInc => []
  | .ctrXform => [.noSchedule, .bufferOverflow]
  | .utf8Enc => [.invalidCharacterCode, .bufferOverflow]
  | .utf8Dec => [.invalidUtf8Sequence, .bufferOverflow]
  | .b64Enc => [.bufferOverflow]
  | .b64Dec => [.decodeFailure, .bufferOverflow]
  | .hexEnc => [.bufferOverflow]
  | .pwConstruct => [.invalidCharacterCode, .bufferOverflow]
  | .pwEncrypt => [.invalidCharacterCode, .noObject, .bufferOverflow]
  | .pwDecrypt => [.invalidUtf8Sequence, .decodeFailure, .noObject, .bufferOverflow]
  | .pwGetdigest | .pwGetpassword => [.noObject]

/-! ### Terms of the statements -/

/-- `V(cb)`: the Counter Block as a big-endian integer (44_ctr.md R190). -/
def counterValue (cb : Block) : Nat := cb.toList.foldl (fun v b => 256 * v + b.toNat) 0

/-- The text the last text-producing command left: `TOUT[0..TOUTLEN)` (R30). -/
def State.outputText (s : State) : List Word := s.tout.readPrefix s.toutlen.toNat

/-- The bytes the last byte-producing command left: `BOUT[0..BOUTLEN)` (R28). -/
def State.outputBytes (s : State) : List Byte := s.bout.readPrefix s.boutlen.toNat

/-- The host copies the output text into the input buffer: `TIN[0..TOUTLEN) <- TOUT[0..TOUTLEN)`, `TINLEN <- TOUTLEN`. -/
def State.copyTextBack (s : State) : State := { s with tin := s.tin.writePrefix s.outputText, tinlen := s.toutlen }

/-- The host copies the output bytes into the input buffer: `BIN[0..BOUTLEN) <- BOUT[0..BOUTLEN)`, `BINLEN <- BOUTLEN`. -/
def State.copyBytesBack (s : State) : State := { s with bin := s.bin.writePrefix s.outputBytes, binlen := s.boutlen }

/-- The name of a command in opcode_table.json (30_encoding.md R94). -/
def mnemonicOf : Instr → String
  | .nop => "NOP"
  | .aesKeyexp _ => "AES.KEYEXP"
  | .aesCipher => "AES.CIPHER"
  | .aesInvcipher => "AES.INVCIPHER"
  | .md5Init => "MD5.INIT"
  | .md5Block => "MD5.BLOCK"
  | .md5Digest => "MD5.DIGEST"
  | .ctrInc => "CTR.INC"
  | .ctrXform => "CTR.XFORM"
  | .utf8Enc => "UTF8.ENC"
  | .utf8Dec => "UTF8.DEC"
  | .b64Enc => "B64.ENC"
  | .b64Dec => "B64.DEC"
  | .hexEnc => "HEX.ENC"
  | .pwConstruct => "PW.CONSTRUCT"
  | .pwEncrypt => "PW.ENCRYPT"
  | .pwDecrypt => "PW.DECRYPT"
  | .pwGetdigest => "PW.GETDIGEST"
  | .pwGetpassword => "PW.GETPASSWORD"
  | .clrerr => "CLRERR"
  | .sreset => "SRESET"

/-- An output buffer after a command that produced `out`: the new elements below `len(out)`, "elements at index `n` and
above keep whatever they held" (R36, R37). -/
def HoldsOutput {w : Nat} (before after : Memory w) (out : List (BitVec w)) : Prop :=
  ∀ i, after.read i = if i < out.length then out.getD i 0#w else before.read i

/-- Byte `j` of the keystream that starts at Counter Block `cb`: byte `j mod 16` of `Cipher(cb + j div 16)`
(44_ctr.md R192). -/
def keystreamByte (cb : Block) (ks : Schedule) (nr j : Nat) : Byte :=
  (cipher (ctrInc^[j / 16] cb) ks nr).toList.getD (j % 16) 0#8

/-- `out` is `m` with the keystream from `cb` on XORed in, byte for byte (44_ctr.md R192). -/
def IsCtrOutput (cb : Block) (ks : Schedule) (nr : Nat) (m out : List Byte) : Prop :=
  out.length = m.length ∧ ∀ j, j < m.length → out.getD j 0#8 = m.getD j 0#8 ^^^ keystreamByte cb ks nr j

/-- The round constant of its `n`-th use, counted from 0 (40_aes_key_expansion.md R114). -/
def roundConstant (n : Nat) : Byte := xtime^[n] 0x01#8

/-- The character of a hexadecimal digit: `0`..`9`, `a`..`f` (45_codecs.md R218). -/
def hexDigit (v : Nat) : Word := BitVec.ofNat 32 (if v < 10 then 0x30 + v else 0x61 + (v - 10))

/-- `txt` is `HexEnc(b)` as bytes: two characters a byte, the high nibble first (45_codecs.md R218; 46_facade.md R233). -/
def IsHexOf (b txt : List Byte) : Prop :=
  txt.length = 2 * b.length ∧ ∀ i, i < b.length →
    txt.getD (2 * i) 0#8 = (hexDigit ((b.getD i 0#8).toNat / 16)).setWidth 8 ∧
    txt.getD (2 * i + 1) 0#8 = (hexDigit ((b.getD i 0#8).toNat % 16)).setWidth 8

/-- The state in which a command's pseudocode tests and assigns: `PW.ENCRYPT` has sampled the time ports (R43), every
other command begins in the state before it. -/
def State.atCommand (s : State) (i : Instr) : State := if i = .pwEncrypt then s.takeSample else s

end Sys2Proof.Machine
end

