-- ==== Sys2Proof/Certificates/Slice0/Obligations.lean ====
section
/-! DEFINITION. The statements about CORE for the provers. Each is a proposition about the model and cites the rules of
spec/ it comes from; OBLIGATIONS.json lists them. -/

open Sys2Proof Sys2Proof.Machine

/-! ### Encoding -/

/-- Decoding and encoding agree: a word decodes to a command exactly when the command is well formed and the word is its
encoding, for every word and every command (30_encoding.md R90 to R95). -/
def Obligations.DecodeInvertsEncode : Prop :=
  ∀ (i : Instr) (c : Word), decode c = some i ↔ i.wf = true ∧ encode i = c

/-- The 23 words of R94, all different, are the words that decode, each to the command the table gives it. -/
def Obligations.LegalWordsAreTheTable : Prop :=
  legalWords.length = 23 ∧ (legalWords.map Prod.fst).Nodup ∧
  ∀ (c : Word) (i : Instr), decode c = some i ↔ (c, i) ∈ legalWords

/-- The rows of the opcode table do not overlap, a legal word selects the row of its command, and a word is illegal
exactly when it selects no row, or selects `AES.KEYEXP` with `KSZ = 3` (R96). -/
def Obligations.OpcodeRowsSelectCommands : Prop :=
  (opcodeRows.Pairwise fun r q => ∀ c : Word, ¬(r.selects c = true ∧ q.selects c = true)) ∧
  (∀ (c : Word) (i : Instr), decode c = some i →
    ∃ r ∈ opcodeRows, r.selects c = true ∧ r.mnemonic = mnemonicOf i) ∧
  ∀ c : Word, decode c = none ↔
    (∀ r ∈ opcodeRows, r.selects c = false) ∨
    (∃ r ∈ opcodeRows, r.mnemonic = "AES.KEYEXP" ∧ r.selects c = true ∧ fieldKsz c = 3#2)

/-- One word of each group, written out from the formats Z and K, and four illegal ones (R91, R92, R94, R272). -/
def Obligations.WrittenWordsDecode : Prop :=
  decode 0b00000000000000000000000000000000#32 = some .nop ∧
  decode 0b00000000000000000000001000000001#32 = some (.aesKeyexp 2#2) ∧
  decode 0b00000000000000000000000000000011#32 = some .aesInvcipher ∧
  decode 0b00000000000000000000000000010010#32 = some .md5Digest ∧
  decode 0b00000000000000000000000000100001#32 = some .ctrXform ∧
  decode 0b00000000000000000000000000110011#32 = some .b64Dec ∧
  decode 0b00000000000000000000000001000001#32 = some .pwEncrypt ∧
  decode 0b00000000000000000000000001111110#32 = some .clrerr ∧
  decode 0x00000004#32 = none ∧ decode 0x00000301#32 = none ∧ decode 0x00000102#32 = none ∧
  decode 0xFFFFFFFF#32 = none

/-! ### One step -/

/-- When the next event is the write of a word to `CMD` and the word decodes to a command, the step is that command, run
in the state where `CMD` holds the word, the event is taken and the bus write is answered; and `withFetchWord` places
exactly such an event (R24, R90; the event list is the model's, log entry 4). -/
def Obligations.StepRunsDecodedCommand : Prop :=
  ∀ (s : State) (c : Word) (i : Instr), decode c = some i →
    (∀ rest, s.events = .writeWord cmdOffset c :: rest →
      step s = exec i { s with events := rest, cmd := c, response := .written }) ∧
    step (s.withFetchWord 32 c.toNat) = exec i { s with cmd := c, response := .written }

/-- A word that is none of the 23 of R94 faults with `IllegalCommand` and changes nothing but `CMD`, `ERR` and
`STATUS.ERRF` (R95); the event list and the bus answer are the model's own fields (log entries 4 and 5). -/
def Obligations.IllegalWordFaults : Prop :=
  ∀ (s : State) (c : Word) (rest : List HostEvent),
    s.events = .writeWord cmdOffset c :: rest → c ∉ legalWords.map Prod.fst →
    step s = .next { s with events := rest, response := .written, cmd := c, err := 0x10#8, errf := true }

/-- Nothing stops CORE: every command and every step answers a next state, in every state (93_implementation_defined.md,
opening); and after a write of any word to `CMD`, `CMD` holds the word, the bus write is answered, never with `HostErr`,
and `ERR` holds 0 or the code of a fault (R24, R271, R280). -/
def Obligations.EveryCommandWriteEnds : Prop :=
  (∀ (i : Instr) (s : State), ∃ t, exec i s = .next t) ∧ (∀ s : State, ∃ t, step s = .next t) ∧
  ∀ (s : State) (c : Word) (rest : List HostEvent), s.events = .writeWord cmdOffset c :: rest →
    ∃ t, step s = .next t ∧ t.cmd = c ∧ t.response = .written ∧ t.events = rest ∧
      (t.err = 0x00#8 ∨ ∃ f, t.err = faultCode f)

/-! ### The bus -/

/-- A read answers the current value of the location, or `HostErr` where no location of its width stands at the offset,
and changes no state (R64); the event list and the answer are the model's own fields (log entries 4 and 5). Element `i` of
each row of the map is element `i` of the register or buffer the row names (R62). -/
def Obligations.HostReadAnswersLocation : Prop :=
  (∀ (s : State) (i : Nat),
    (∀ h : i < 32, s.byteAt .key i = s.key[i]) ∧ (∀ h : i < 16, s.byteAt .blk i = s.blk[i]) ∧
    (∀ h : i < 16, s.byteAt .ctrblk i = s.ctrblk[i]) ∧ (∀ h : i < 240, s.byteAt .ks i = s.ks[i]) ∧
    s.byteAt .bin i = s.bin.read i ∧ s.byteAt .bout i = s.bout.read i ∧
    s.wordAt .cmd 0 = s.cmd ∧ s.wordAt .status 0 = s.statusWord ∧ s.wordAt .err 0 = s.errWord ∧
    s.wordAt .binlen 0 = s.binlen ∧ s.wordAt .boutlen 0 = s.boutlen ∧ s.wordAt .tinlen 0 = s.tinlen ∧
    s.wordAt .toutlen 0 = s.toutlen ∧ (∀ h : i < 4, s.wordAt .h i = s.h[i]) ∧
    s.wordAt .tin i = s.tin.read i ∧ s.wordAt .tout i = s.tout.read i) ∧
  ∀ (s : State) (a : Offset) (rest : List HostEvent),
    (s.events = .readByte a :: rest →
      (∀ r i, locateByte s.params a = some (r, i) →
        step s = .next { s with events := rest, response := .byte (s.byteAt r.array i) }) ∧
      (locateByte s.params a = none → step s = .next { s with events := rest, response := .hostErr })) ∧
    (s.events = .readWord a :: rest →
      (∀ r i, locateWord s.params a = some (r, i) →
        step s = .next { s with events := rest, response := .word (s.wordAt r.array i) }) ∧
      (locateWord s.params a = none → step s = .next { s with events := rest, response := .hostErr }))

/-- A byte write to a writable location stores the value there and leaves every other location as it was, but for the
schedule's flags where the location is a byte of `KEY`; the Encryption Object is untouched (R65, R69). The memories are
canonical, an invariant of the model (`StepKeepsInvariant`). -/
def Obligations.ByteWriteChangesOneLocation : Prop :=
  ∀ (s : State) (a : Offset) (v : Byte) (rest : List HostEvent) (r : MapRow ByteArr) (i : Nat),
    s.MemoriesCanonical → s.events = .writeByte a v :: rest → locateByte s.params a = some (r, i) →
    r.writable = true →
    ∃ t, step s = .next t ∧ t.events = rest ∧ t.response = .written ∧
      t.byteAt r.array i = v ∧
      (∀ a' r' j, locateByte s.params a' = some (r', j) → a' ≠ a → t.byteAt r'.array j = s.byteAt r'.array j) ∧
      (∀ k j, k ≠ .status → t.wordAt k j = s.wordAt k j) ∧
      t.errf = s.errf ∧ t.objv = s.objv ∧
      (r.array = .key → t.ksv = false ∧ t.nr = 0#4) ∧ (r.array ≠ .key → t.ksv = s.ksv ∧ t.nr = s.nr) ∧
      s.SameObject t ∧ t.params = s.params ∧ t.timeSamples = s.timeSamples ∧ t.samplesTaken = s.samplesTaken

/-- A word write to a writable location other than `CMD` stores the value there and leaves every other location as it
was; the flags and the Encryption Object are untouched (R65, R69). The memories are canonical. -/
def Obligations.WordWriteChangesOneLocation : Prop :=
  ∀ (s : State) (a : Offset) (v : Word) (rest : List HostEvent) (r : MapRow WordArr) (i : Nat),
    s.MemoriesCanonical → s.events = .writeWord a v :: rest → a ≠ cmdOffset →
    locateWord s.params a = some (r, i) → r.writable = true →
    ∃ t, step s = .next t ∧ t.events = rest ∧ t.response = .written ∧
      t.wordAt r.array i = v ∧
      (∀ a' r' j, locateWord s.params a' = some (r', j) → a' ≠ a → t.wordAt r'.array j = s.wordAt r'.array j) ∧
      (∀ k j, t.byteAt k j = s.byteAt k j) ∧
      s.SameObject t ∧ t.params = s.params ∧ t.timeSamples = s.timeSamples ∧ t.samplesTaken = s.samplesTaken

/-- An access that is not allowed is answered with `HostErr` and changes no state at all: an unmapped offset, the wrong
width, a misaligned word, a write to a read-only location (R67). -/
def Obligations.RefusedAccessChangesNothing : Prop :=
  ∀ (s : State) (a : Offset) (rest : List HostEvent),
    (s.events = .readByte a :: rest → locateByte s.params a = none →
      step s = .next { s with events := rest, response := .hostErr }) ∧
    (s.events = .readWord a :: rest → locateWord s.params a = none →
      step s = .next { s with events := rest, response := .hostErr }) ∧
    (∀ v, s.events = .writeByte a v :: rest →
      (∀ r i, locateByte s.params a = some (r, i) → r.writable = false) →
      step s = .next { s with events := rest, response := .hostErr }) ∧
    (∀ v, s.events = .writeWord a v :: rest →
      (∀ r i, locateWord s.params a = some (r, i) → r.writable = false) →
      step s = .next { s with events := rest, response := .hostErr })

/-- The address map: every element of every row is found at its own offset and by its own width alone, a misaligned word
offset and every offset of the list of unmapped ones is found by no width (R62, R66), for every legal pair of
capacities. -/
def Obligations.AddressMapIsExact : Prop :=
  ∀ p : Params, p.Legal →
    (∀ r ∈ byteRows p, ∀ i, i < r.count → ∀ a : Offset, a.toNat = r.base + i →
      locateByte p a = some (r, i) ∧ locateWord p a = none) ∧
    (∀ r ∈ wordRows p, ∀ i, i < r.count → ∀ a : Offset, a.toNat = r.base + 4 * i →
      locateWord p a = some (r, i) ∧ locateByte p a = none) ∧
    (∀ r ∈ wordRows p, ∀ a : Offset, r.base ≤ a.toNat → a.toNat < r.base + 4 * r.count → a.toNat % 4 ≠ 0 →
      locateWord p a = none ∧ locateByte p a = none) ∧
    (∀ a : Offset,
      (0x0001C ≤ a.toNat ∧ a.toNat < 0x00020) ∨ (0x00030 ≤ a.toNat ∧ a.toNat < 0x00040) ∨
      (0x00080 ≤ a.toNat ∧ a.toNat < 0x00100) ∨ (0x001F0 ≤ a.toNat ∧ a.toNat < 0x10000) ∨
      (0x10000 + p.bufBytes ≤ a.toNat ∧ a.toNat < 0x20000) ∨
      (0x20000 + p.bufBytes ≤ a.toNat ∧ a.toNat < 0x40000) ∨
      (0x40000 + 4 * p.bufCps ≤ a.toNat ∧ a.toNat < 0x80000) ∨ 0x80000 + 4 * p.bufCps ≤ a.toNat →
      locateWord p a = none ∧ locateByte p a = none)

/-- A read right after a write to the same location returns the value written; after any word written to `CMD`, legal or
not, a read of `CMD` returns that word (R24, R73). The memories are canonical. -/
def Obligations.ReadReturnsLastWrite : Prop :=
  ∀ (s : State) (a : Offset) (rest : List HostEvent), s.MemoriesCanonical →
    (∀ v r i, s.events = .writeByte a v :: .readByte a :: rest → locateByte s.params a = some (r, i) →
      r.writable = true → ∃ t u, step s = .next t ∧ step t = .next u ∧ u.response = .byte v) ∧
    (∀ v r i, s.events = .writeWord a v :: .readWord a :: rest → locateWord s.params a = some (r, i) →
      r.writable = true → ∃ t u, step s = .next t ∧ step t = .next u ∧ u.response = .word v)

/-- Any write to any byte of `KEY` ends the schedule's lifetime: `KSV` and `NR` are cleared, `KS` and `PKS` keep their
bytes, and the three commands that need a schedule fault with `NoSchedule` (R310, R32, R278). -/
def Obligations.KeyWriteEndsSchedule : Prop :=
  ∀ (s : State) (a : Offset) (v : Byte) (rest : List HostEvent) (i : Nat) (h : i < 32),
    s.events = .writeByte a v :: rest → a.toNat = 0x00040 + i →
    ∃ t, step s = .next t ∧ t.key[i] = v ∧ t.ksv = false ∧ t.nr = 0#4 ∧ t.ks = s.ks ∧ t.pks = s.pks ∧
      ∀ i ∈ [Instr.aesCipher, .aesInvcipher, .ctrXform],
        exec i t = .next { t with err := 0x11#8, errf := true }

/-! ### Faults and flags -/

/-- Faults are precise: a command either completes, with `ERR` 0 and `ERRF` as it was (cleared by `CLRERR` and `SRESET`),
or leaves the state before it with the code of one of its faults in `ERR` and `ERRF` set (R280). The sample of the time
ports that `PW.ENCRYPT` takes is the environment's, not state (R43; log entry 3). -/
def Obligations.FaultsArePrecise : Prop :=
  ∀ (i : Instr) (s t : State), i.wf = true → exec i s = .next t →
    (t.err = 0x00#8 ∧ t.errf = (if clearsErrf i then false else s.errf)) ∨
    (∃ f ∈ faultsOf i, t = { s.atCommand i with err := faultCode f, errf := true })

/-- The fault matrix: a command can raise a fault exactly where R282 marks it, on an instance with legal capacities. -/
def Obligations.FaultMatrixIsExact : Prop :=
  ∀ (i : Instr) (f : CmdFault), i.wf = true →
    (f ∈ faultsOf i ↔ ∃ s t : State, s.params.Legal ∧ exec i s = .next t ∧ t.err = faultCode f)

/-- The flags of `STATUS`: where they stand in the word the host reads there, and what a command does to each; `ERR` reads
as its code (R25, R26). -/
def Obligations.StatusFlagsFollowCommands : Prop :=
  (∀ s : State,
    (s.wordAt .status 0).toNat = s.errf.toNat + 2 * s.ksv.toNat + 4 * s.objv.toNat + 16 * s.nr.toNat ∧
    (s.wordAt .err 0).toNat = s.err.toNat ∧ s.wordAt .status 0 = s.statusWord ∧ s.wordAt .err 0 = s.errWord ∧
    s.statusWord.toNat = s.errf.toNat + 2 * s.ksv.toNat + 4 * s.objv.toNat + 16 * s.nr.toNat ∧
    s.errWord.toNat = s.err.toNat) ∧
  ∀ (i : Instr) (s t : State), exec i s = .next t →
    t.errf = (if t.err = 0x00#8 then (if clearsErrf i then false else s.errf) else true) ∧
    t.ksv = (if t.err = 0x00#8 then
      (match i with | .aesKeyexp _ => true | .sreset => false | _ => s.ksv) else s.ksv) ∧
    t.objv = (if t.err = 0x00#8 then
      (match i with | .pwConstruct => true | .sreset => false | _ => s.objv) else s.objv) ∧
    t.nr = (if t.err = 0x00#8 then
      (match i with | .aesKeyexp ksz => BitVec.ofNat 4 (10 + 2 * ksz.toNat) | .sreset => 0#4 | _ => s.nr) else s.nr)

/-- The write matrix: a command leaves alone every byte array, word array, schedule flag and object field that R47 does
not let it write, beside `ERR` and `STATUS.ERRF`; it never writes `CMD`; and the fields of the model stay, but for the
sample `PW.ENCRYPT` takes. -/
def Obligations.CommandsWriteOnlyTheirState : Prop :=
  ∀ (i : Instr) (s t : State), exec i s = .next t →
    (∀ k j, k ∉ bytesWritten i → t.byteAt k j = s.byteAt k j) ∧
    (∀ k j, k ∉ wordsWritten i → k ≠ .err → k ≠ .status → t.wordAt k j = s.wordAt k j) ∧
    (writesScheduleFlags i = false → t.ksv = s.ksv ∧ t.nr = s.nr) ∧
    (writesObject i = false → s.SameObject t) ∧
    t.cmd = s.cmd ∧ t.params = s.params ∧ t.events = s.events ∧ t.response = s.response ∧
    (i ≠ .pwEncrypt → t.timeSamples = s.timeSamples ∧ t.samplesTaken = s.samplesTaken) ∧
    (i = .pwEncrypt → t.timeSamples = s.timeSamples.tail ∧ t.samplesTaken = s.samplesTaken + 1)

/-! ### Reset and the invariant -/

/-- Every piece of state is zero after reset (R45): what the host can read, and the Encryption Object. -/
def Obligations.ResetStateIsZero : Prop :=
  (∀ k i, State.reset.byteAt k i = 0x00#8) ∧ (∀ k i, State.reset.wordAt k i = 0x00000000#32) ∧
  State.reset.errf = false ∧ State.reset.ksv = false ∧ State.reset.objv = false ∧ State.reset.nr = 0#4 ∧
  State.reset.err = 0x00#8 ∧ (∀ i, State.reset.pw.read i = 0#32) ∧ State.reset.pwlen = 0 ∧
  (∀ b ∈ State.reset.pks.toList, b = 0x00#8) ∧ (∀ b ∈ State.reset.digest.toList, b = 0x00#8)

/-- Hardware reset puts CORE in the reset state from any state: nothing of the state before is left but the parameters of
the instance and the environment (R300, R301; log entries 1, 3 and 4). -/
def Obligations.HardwareResetForgetsState : Prop :=
  ∀ (s : State) (rest : List HostEvent), s.events = .hwReset :: rest →
    step s = .next { State.reset with
      params := s.params, events := rest, timeSamples := s.timeSamples, samplesTaken := s.samplesTaken }

/-- The invariant of Safety.lean holds after reset. -/
def Obligations.ResetMeetsInvariant : Prop := State.reset.Inv

/-- Every step keeps the invariant, from every state that meets it: the capacities stay legal, the memories stay canonical
and within their capacities, `BOUTLEN ≤ BUF_BYTES`, `TOUTLEN ≤ BUF_CPS`, `PWLEN ≤ BUF_CPS`, `NR` is 10, 12 or 14 exactly
while `KSV = 1` (else 0), the tail of a valid schedule is zero, `TOUT` and `PW` hold code points, the digest of an object
is hex characters, `ERR` holds a known code that is sticky in `ERRF`, and the object's key is doubled
(R25, R28, R30, R33, R36, R37, R40, R41, R234, R271). -/
def Obligations.StepKeepsInvariant : Prop :=
  ∀ s t : State, s.Inv → step s = .next t → t.Inv

/-! ### Isolation -/

/-- Nothing but the façade commands, `SRESET` and hardware reset touches the Encryption Object or depends on it: every
other bus access, and every raw command, on a state with another object ends in the same state with that object
(R38, R39, R47, R289). -/
def Obligations.ObjectIsIsolated : Prop :=
  ∀ (s : State) (pw : Memory 32) (pwlen : Nat) (digest : Vector Byte 32) (pks : Schedule),
    (∀ e : HostEvent, (∀ c, e ≠ .writeWord cmdOffset c) → e ≠ .hwReset →
      ∃ t, serve s e = .next t ∧ s.SameObject t ∧
        serve (s.withObject pw pwlen digest pks) e = .next (t.withObject pw pwlen digest pks)) ∧
    (∀ i : Instr, touchesObject i = false →
      ∃ t, exec i s = .next t ∧ s.SameObject t ∧
        exec i (s.withObject pw pwlen digest pks) = .next (t.withObject pw pwlen digest pks))

/-- No façade command reads or writes `KEY`, `KS`, `KSV`, `NR`, `BLK`, `CTRBLK`, `H`, `BIN`, `BINLEN`, `BOUT` or `BOUTLEN`
(46_facade.md, opening). -/
def Obligations.FacadeIgnoresRawState : Prop :=
  ∀ (s r : State), ∀ i ∈ [Instr.pwConstruct, .pwEncrypt, .pwDecrypt, .pwGetdigest, .pwGetpassword],
    ∃ t, exec i s = .next t ∧ t = t.withRaw s ∧ exec i (s.withRaw r) = .next (t.withRaw r)

/-! ### The commands: housekeeping -/

/-- `NOP` writes `ERR` only; `CLRERR` clears `ERRF` and `ERR` and nothing else (R284, R285). -/
def Obligations.NopAndClrerrResult : Prop :=
  decode 0x00000000#32 = some .nop ∧ decode 0x0000007E#32 = some .clrerr ∧
  ∀ s : State,
    exec .nop s = .next { s with err := 0x00#8 } ∧
    exec .clrerr s = .next { s with errf := false, err := 0x00#8 }

/-- `SRESET` puts every piece of state in its reset value, except `CMD`, which holds the word written (R302); the
parameters and the environment are no state of CORE (R43, R46). -/
def Obligations.SresetResult : Prop :=
  decode 0x0000007F#32 = some .sreset ∧
  ∀ s : State,
    exec .sreset s = .next { State.reset with
      cmd := s.cmd, params := s.params, events := s.events, response := s.response,
      timeSamples := s.timeSamples, samplesTaken := s.samplesTaken }

/-! ### The commands: Block Cipher Engine -/

/-- `AES.KEYEXP` with each of the three legal key sizes: the schedule of the first `4×Nk` bytes of `KEY` in
`KS[0 .. 16×(Nr+1))`, 0x00 in the rest, `KSV` set, `NR = Nk + 6`, nothing else changed (R117). -/
def Obligations.KeyexpResult : Prop :=
  decode 0x00000001#32 = some (.aesKeyexp 0#2) ∧ decode 0x00000101#32 = some (.aesKeyexp 1#2) ∧
  decode 0x00000201#32 = some (.aesKeyexp 2#2) ∧
  ∀ (s : State) (ksz : BitVec 2), ksz ≠ 3#2 →
    ∃ t, exec (.aesKeyexp ksz) s = .next t ∧
      t = { s with ks := t.ks, ksv := true, nr := t.nr, err := 0x00#8 } ∧
      t.nr.toNat = 10 + 2 * ksz.toNat ∧
      (keyExpansion (s.key.toList.take (4 * (4 + 2 * ksz.toNat))) (4 + 2 * ksz.toNat)).length =
        16 * (t.nr.toNat + 1) ∧
      ∀ j, j < 240 → t.ks.toList.getD j 0#8 =
        if j < 16 * (t.nr.toNat + 1) then
          (keyExpansion (s.key.toList.take (4 * (4 + 2 * ksz.toNat))) (4 + 2 * ksz.toNat)).getD j 0#8
        else 0x00#8

/-- `AES.CIPHER` replaces `BLK` by its encryption, `AES.INVCIPHER` by its decryption, under `KS` with `NR` rounds, and
nothing else but `ERR`; both fault with `NoSchedule` where `KSV = 0` (R142, R155). The two functions by their rounds: the
round keys 0, 1, .., `NR` in order, or in reverse order, and no column mix in the final round (R140, 42_aes_inv_cipher.md
R154); and their known answers for the three key sizes (95_test_vectors.md, section 2.2, rows 1 to 3). -/
def Obligations.CipherCommandsResult : Prop :=
  decode 0x00000002#32 = some .aesCipher ∧ decode 0x00000003#32 = some .aesInvcipher ∧
  (∀ (b : Block) (ks : Schedule) (nr : Nat), 1 ≤ nr →
    (∃ x : Nat → Block, x 0 = addRoundKey b ks 0 ∧
      (∀ r, 1 ≤ r → r < nr → x r = addRoundKey (mixColumns (shiftRows (subBytes (x (r - 1))))) ks r) ∧
      cipher b ks nr = addRoundKey (shiftRows (subBytes (x (nr - 1)))) ks nr) ∧
    ∃ y : Nat → Block, y nr = addRoundKey b ks nr ∧
      (∀ r, 1 ≤ r → r < nr → y r = invMixColumns (addRoundKey (invSubBytes (invShiftRows (y (r + 1)))) ks r)) ∧
      invCipher b ks nr = addRoundKey (invSubBytes (invShiftRows (y 1))) ks 0) ∧
  (let b : Block :=
        #v[0x00#8, 0x11#8, 0x22#8, 0x33#8, 0x44#8, 0x55#8, 0x66#8, 0x77#8, 0x88#8, 0x99#8, 0xAA#8, 0xBB#8, 0xCC#8,
        0xDD#8, 0xEE#8, 0xFF#8];
      cipher b (padTo 240 (keyExpansion ((List.range 16).map (BitVec.ofNat 8)) 4)) 10 =
        #v[0x69#8, 0xC4#8, 0xE0#8, 0xD8#8, 0x6A#8, 0x7B#8, 0x04#8, 0x30#8, 0xD8#8, 0xCD#8, 0xB7#8, 0x80#8, 0x70#8,
        0xB4#8, 0xC5#8, 0x5A#8] ∧
      invCipher b (padTo 240 (keyExpansion ((List.range 16).map (BitVec.ofNat 8)) 4)) 10 =
        #v[0x76#8, 0x2A#8, 0x5A#8, 0xB5#8, 0x09#8, 0x29#8, 0x18#8, 0x9C#8, 0xEF#8, 0xDB#8, 0x99#8, 0x43#8, 0x47#8,
        0x90#8, 0xAA#8, 0xD8#8] ∧
      cipher b (padTo 240 (keyExpansion ((List.range 24).map (BitVec.ofNat 8)) 6)) 12 =
        #v[0xDD#8, 0xA9#8, 0x7C#8, 0xA4#8, 0x86#8, 0x4C#8, 0xDF#8, 0xE0#8, 0x6E#8, 0xAF#8, 0x70#8, 0xA0#8, 0xEC#8,
        0x0D#8, 0x71#8, 0x91#8] ∧
      invCipher b (padTo 240 (keyExpansion ((List.range 24).map (BitVec.ofNat 8)) 6)) 12 =
        #v[0x33#8, 0x69#8, 0xEB#8, 0x82#8, 0x97#8, 0x36#8, 0x35#8, 0xE9#8, 0xC2#8, 0xE9#8, 0x6D#8, 0x68#8, 0x77#8,
        0x24#8, 0xC7#8, 0x90#8] ∧
      cipher b (padTo 240 (keyExpansion ((List.range 32).map (BitVec.ofNat 8)) 8)) 14 =
        #v[0x8E#8, 0xA2#8, 0xB7#8, 0xCA#8, 0x51#8, 0x67#8, 0x45#8, 0xBF#8, 0xEA#8, 0xFC#8, 0x49#8, 0x90#8, 0x4B#8,
        0x49#8, 0x60#8, 0x89#8] ∧
      invCipher b (padTo 240 (keyExpansion ((List.range 32).map (BitVec.ofNat 8)) 8)) 14 =
        #v[0xEA#8, 0xB4#8, 0x87#8, 0xE6#8, 0x8E#8, 0xC9#8, 0x2D#8, 0xB4#8, 0xAC#8, 0x28#8, 0x8A#8, 0x24#8, 0x75#8,
        0x7B#8, 0x02#8, 0x62#8]) ∧
  ∀ s : State,
    (s.ksv = false →
      exec .aesCipher s = .next { s with err := 0x11#8, errf := true } ∧
      exec .aesInvcipher s = .next { s with err := 0x11#8, errf := true }) ∧
    (s.ksv = true →
      exec .aesCipher s = .next { s with blk := cipher s.blk s.ks s.nr.toNat, err := 0x00#8 } ∧
      exec .aesInvcipher s = .next { s with blk := invCipher s.blk s.ks s.nr.toNat, err := 0x00#8 })

/-! ### The commands: Hash Engine -/

/-- `MD5.INIT` loads the four initial words, `MD5.BLOCK` compresses `BIN[0..64)` into `H` whatever `BINLEN` holds, and
neither changes anything else (R181, R182). -/
def Obligations.Md5InitAndBlockResult : Prop :=
  decode 0x00000010#32 = some .md5Init ∧ decode 0x00000011#32 = some .md5Block ∧
  ∀ s : State,
    exec .md5Init s = .next { s with
      h := #v[0x67452301#32, 0xEFCDAB89#32, 0x98BADCFE#32, 0x10325476#32], err := 0x00#8 } ∧
    exec .md5Block s = .next { s with h := md5Block s.h (s.bin.readPrefix 64), err := 0x00#8 }

/-- `MD5.DIGEST`: `InvalidInput` at 2^29 bytes and above, then `BufferOverflow`, else the 16 digest bytes in `BOUT`, their
four little-endian words in `H`, `BOUTLEN = 16`, and nothing else changed (R183). -/
def Obligations.Md5DigestResult : Prop :=
  decode 0x00000012#32 = some .md5Digest ∧
  ∀ s : State,
    (2 ^ 29 ≤ s.binlen.toNat → exec .md5Digest s = .next { s with err := 0x01#8, errf := true }) ∧
    (s.binlen.toNat < 2 ^ 29 → s.params.bufBytes < s.binlen.toNat →
      exec .md5Digest s = .next { s with err := 0x13#8, errf := true }) ∧
    (s.binlen.toNat < 2 ^ 29 → s.binlen.toNat ≤ s.params.bufBytes →
      ∃ t, exec .md5Digest s = .next t ∧
        t = { s with h := t.h, bout := t.bout, boutlen := 16#32, err := 0x00#8 } ∧
        (md5Sum (s.bin.readPrefix s.binlen.toNat)).length = 16 ∧
        HoldsOutput s.bout t.bout (md5Sum (s.bin.readPrefix s.binlen.toNat)) ∧
        ∀ k (hk : k < 4), t.h[k] = md5Word (md5Sum (s.bin.readPrefix s.binlen.toNat)) k)

/-! ### The commands: counter mode -/

/-- `CTR.INC` adds 1 to `CTRBLK` as a 128-bit big-endian integer, modulo 2^128, and changes nothing else (R190, R191). -/
def Obligations.CtrIncResult : Prop :=
  decode 0x00000020#32 = some .ctrInc ∧
  ∀ s : State, ∃ t, exec .ctrInc s = .next t ∧ t = { s with ctrblk := t.ctrblk, err := 0x00#8 } ∧
    counterValue t.ctrblk = (counterValue s.ctrblk + 1) % 2 ^ 128

/-- `CTR.XFORM`: `NoSchedule`, then `BufferOverflow`, else byte `j` of `BIN[0..BINLEN)` XORed with byte `j mod 16` of
`Cipher(CTRBLK + j div 16)` in `BOUT`, `BOUTLEN = BINLEN`, `CTRBLK` advanced `ceil(BINLEN / 16)` times, and nothing else
changed (R192, R193). -/
def Obligations.CtrXformResult : Prop :=
  decode 0x00000021#32 = some .ctrXform ∧
  ∀ s : State,
    (s.ksv = false → exec .ctrXform s = .next { s with err := 0x11#8, errf := true }) ∧
    (s.ksv = true → s.params.bufBytes < s.binlen.toNat →
      exec .ctrXform s = .next { s with err := 0x13#8, errf := true }) ∧
    (s.ksv = true → s.binlen.toNat ≤ s.params.bufBytes →
      ∃ t out, exec .ctrXform s = .next t ∧
        t = { s with ctrblk := t.ctrblk, bout := t.bout, boutlen := s.binlen, err := 0x00#8 } ∧
        t.ctrblk = ctrInc^[(s.binlen.toNat + 15) / 16] s.ctrblk ∧
        IsCtrOutput s.ctrblk s.ks s.nr.toNat (s.bin.readPrefix s.binlen.toNat) out ∧
        HoldsOutput s.bout t.bout out)

/-! ### The commands: codecs -/

/-- `UTF8.ENC`: `BufferOverflow` for the input length, `InvalidCharacterCode` for an element at or above 0x110000,
`BufferOverflow` for the output, else the encoding in `BOUT` (R203). -/
def Obligations.Utf8EncResult : Prop :=
  decode 0x00000030#32 = some .utf8Enc ∧
  ∀ s : State,
    (s.params.bufCps < s.tinlen.toNat → exec .utf8Enc s = .next { s with err := 0x13#8, errf := true }) ∧
    (s.tinlen.toNat ≤ s.params.bufCps →
      ((∃ c ∈ s.tin.readPrefix s.tinlen.toNat, 0x110000 ≤ c.toNat) →
        exec .utf8Enc s = .next { s with err := 0x02#8, errf := true }) ∧
      (∀ out, utf8Encode (s.tin.readPrefix s.tinlen.toNat) = .ok out →
        (s.params.bufBytes < out.length → exec .utf8Enc s = .next { s with err := 0x13#8, errf := true }) ∧
        (out.length ≤ s.params.bufBytes →
          ∃ t, exec .utf8Enc s = .next t ∧
            t = { s with bout := t.bout, boutlen := BitVec.ofNat 32 out.length, err := 0x00#8 } ∧
            HoldsOutput s.bout t.bout out)))

/-- `UTF8.DEC`: `BufferOverflow` for the input length, `InvalidUtf8Sequence` for malformed bytes, `BufferOverflow` for the
output, else the code points in `TOUT` (R206). -/
def Obligations.Utf8DecResult : Prop :=
  decode 0x00000031#32 = some .utf8Dec ∧
  ∀ s : State,
    (s.params.bufBytes < s.binlen.toNat → exec .utf8Dec s = .next { s with err := 0x13#8, errf := true }) ∧
    (s.binlen.toNat ≤ s.params.bufBytes →
      ((∀ out, utf8Decode (s.bin.readPrefix s.binlen.toNat) ≠ .ok out) →
        exec .utf8Dec s = .next { s with err := 0x03#8, errf := true }) ∧
      (∀ out, utf8Decode (s.bin.readPrefix s.binlen.toNat) = .ok out →
        (s.params.bufCps < out.length → exec .utf8Dec s = .next { s with err := 0x13#8, errf := true }) ∧
        (out.length ≤ s.params.bufCps →
          ∃ t, exec .utf8Dec s = .next t ∧
            t = { s with tout := t.tout, toutlen := BitVec.ofNat 32 out.length, err := 0x00#8 } ∧
            HoldsOutput s.tout t.tout out)))

/-- `B64.ENC`: `BufferOverflow` for the input or the output length, else `4 × ceil(BINLEN / 3)` characters in `TOUT`
(R212). -/
def Obligations.B64EncResult : Prop :=
  decode 0x00000032#32 = some .b64Enc ∧
  ∀ s : State,
    (s.params.bufBytes < s.binlen.toNat ∨ s.params.bufCps < 4 * ((s.binlen.toNat + 2) / 3) →
      exec .b64Enc s = .next { s with err := 0x13#8, errf := true }) ∧
    (s.binlen.toNat ≤ s.params.bufBytes → 4 * ((s.binlen.toNat + 2) / 3) ≤ s.params.bufCps →
      ∃ t, exec .b64Enc s = .next t ∧
        t = { s with tout := t.tout, toutlen := BitVec.ofNat 32 (4 * ((s.binlen.toNat + 2) / 3)), err := 0x00#8 } ∧
        HoldsOutput s.tout t.tout (b64Encode (s.bin.readPrefix s.binlen.toNat)))

/-- `B64.DEC`: `BufferOverflow` for the input length, `DecodeFailure` for a text that is no Base64, `BufferOverflow` for
the output, else the bytes in `BOUT` (R215). -/
def Obligations.B64DecResult : Prop :=
  decode 0x00000033#32 = some .b64Dec ∧
  ∀ s : State,
    (s.params.bufCps < s.tinlen.toNat → exec .b64Dec s = .next { s with err := 0x13#8, errf := true }) ∧
    (s.tinlen.toNat ≤ s.params.bufCps →
      ((∀ out, b64Decode (s.tin.readPrefix s.tinlen.toNat) ≠ .ok out) →
        exec .b64Dec s = .next { s with err := 0x04#8, errf := true }) ∧
      (∀ out, b64Decode (s.tin.readPrefix s.tinlen.toNat) = .ok out →
        (s.params.bufBytes < out.length → exec .b64Dec s = .next { s with err := 0x13#8, errf := true }) ∧
        (out.length ≤ s.params.bufBytes →
          ∃ t, exec .b64Dec s = .next t ∧
            t = { s with bout := t.bout, boutlen := BitVec.ofNat 32 out.length, err := 0x00#8 } ∧
            HoldsOutput s.bout t.bout out)))

/-- `HEX.ENC`: `BufferOverflow` for the input or the output length, else two lowercase digits a byte in `TOUT`, the high
nibble first, what stood in `TOUT` beyond them kept (R218, R219). -/
def Obligations.HexEncResult : Prop :=
  decode 0x00000034#32 = some .hexEnc ∧
  ∀ s : State,
    (s.params.bufBytes < s.binlen.toNat ∨ s.params.bufCps < 2 * s.binlen.toNat →
      exec .hexEnc s = .next { s with err := 0x13#8, errf := true }) ∧
    (s.binlen.toNat ≤ s.params.bufBytes → 2 * s.binlen.toNat ≤ s.params.bufCps →
      ∃ t, exec .hexEnc s = .next t ∧
        t = { s with tout := t.tout, toutlen := BitVec.ofNat 32 (2 * s.binlen.toNat), err := 0x00#8 } ∧
        (∀ i, i < s.binlen.toNat →
          t.tout.read (2 * i) = hexDigit ((s.bin.read i).toNat / 16) ∧
          t.tout.read (2 * i + 1) = hexDigit ((s.bin.read i).toNat % 16)) ∧
        ∀ i, 2 * s.binlen.toNat ≤ i → t.tout.read i = s.tout.read i)

/-! ### The commands: the façade -/

/-- `PW.CONSTRUCT`: `BufferOverflow`, then `InvalidCharacterCode`, else the password in `PW` (elements from `PWLEN` on
kept), its digest in `DIGEST`, its schedule in `PKS`, `OBJV` set, and nothing else changed (R236). -/
def Obligations.ConstructResult : Prop :=
  decode 0x00000040#32 = some .pwConstruct ∧
  ∀ s : State,
    (s.params.bufCps < s.tinlen.toNat → exec .pwConstruct s = .next { s with err := 0x13#8, errf := true }) ∧
    (s.tinlen.toNat ≤ s.params.bufCps →
      ((∃ c ∈ s.tin.readPrefix s.tinlen.toNat, 0x110000 ≤ c.toNat) →
        exec .pwConstruct s = .next { s with err := 0x02#8, errf := true }) ∧
      (∀ pb, utf8Encode (s.tin.readPrefix s.tinlen.toNat) = .ok pb →
        ∃ t, exec .pwConstruct s = .next t ∧
          t = { s with
            pw := t.pw, pwlen := s.tinlen.toNat, digest := t.digest, pks := createKeySchedule pb, objv := true,
            err := 0x00#8 } ∧
          HoldsOutput s.pw t.pw (s.tin.readPrefix s.tinlen.toNat) ∧
          t.digest.toList = createPasswordDigest s.params.sha1 pb))

/-- `PW.ENCRYPT`, for whatever the time ports give: `NoObject`, `BufferOverflow`, `InvalidCharacterCode`, `BufferOverflow`
for the output, else the Base64 text of the nonce and the counter-mode bytes in `TOUT` (R238), the nonce being the seconds,
most significant byte first, and the low 8 bits of the milliseconds four times (R237). The sample is taken in
every case (R43); where the environment lists none it is a free value (log entry 3), and nothing here depends on it. -/
def Obligations.EncryptResult : Prop :=
  decode 0x00000041#32 = some .pwEncrypt ∧
  ∀ s : State,
    (s.objv = false → exec .pwEncrypt s = .next { s.takeSample with err := 0x12#8, errf := true }) ∧
    (s.objv = true → s.params.bufCps < s.tinlen.toNat →
      exec .pwEncrypt s = .next { s.takeSample with err := 0x13#8, errf := true }) ∧
    (s.objv = true → s.tinlen.toNat ≤ s.params.bufCps →
      ((∃ c ∈ s.tin.readPrefix s.tinlen.toNat, 0x110000 ≤ c.toNat) →
        exec .pwEncrypt s = .next { s.takeSample with err := 0x02#8, errf := true }) ∧
      (∀ pt, utf8Encode (s.tin.readPrefix s.tinlen.toNat) = .ok pt →
        (s.params.bufCps < 4 * ((8 + pt.length + 2) / 3) →
          exec .pwEncrypt s = .next { s.takeSample with err := 0x13#8, errf := true }) ∧
        (4 * ((8 + pt.length + 2) / 3) ≤ s.params.bufCps →
          ∃ (t : State) (ct nonce : List Byte) (cb : Block), exec .pwEncrypt s = .next t ∧
            t = { s.takeSample with
              tout := t.tout, toutlen := BitVec.ofNat 32 (4 * ((8 + pt.length + 2) / 3)), err := 0x00#8 } ∧
            nonce = [BitVec.ofNat 8 (s.timeSample.sec.toNat / 2 ^ 24), BitVec.ofNat 8 (s.timeSample.sec.toNat / 2 ^ 16),
              BitVec.ofNat 8 (s.timeSample.sec.toNat / 2 ^ 8), BitVec.ofNat 8 s.timeSample.sec.toNat,
              BitVec.ofNat 8 s.timeSample.ms.toNat, BitVec.ofNat 8 s.timeSample.ms.toNat,
              BitVec.ofNat 8 s.timeSample.ms.toNat, BitVec.ofNat 8 s.timeSample.ms.toNat] ∧
            cb.toList = nonce ++ List.replicate 8 0x00#8 ∧ IsCtrOutput cb s.pks 14 pt ct ∧
            HoldsOutput s.tout t.tout (b64Encode (nonce ++ ct)))))

/-- `PW.DECRYPT`: `NoObject`, `BufferOverflow`, `DecodeFailure` for bad Base64 or fewer than 8 bytes,
`InvalidUtf8Sequence`, else the plaintext in `TOUT`, and nothing else changed (R240). -/
def Obligations.DecryptResult : Prop :=
  decode 0x00000042#32 = some .pwDecrypt ∧
  ∀ s : State,
    (s.objv = false → exec .pwDecrypt s = .next { s with err := 0x12#8, errf := true }) ∧
    (s.objv = true → s.params.bufCps < s.tinlen.toNat →
      exec .pwDecrypt s = .next { s with err := 0x13#8, errf := true }) ∧
    (s.objv = true → s.tinlen.toNat ≤ s.params.bufCps →
      ((∀ raw, b64Decode (s.tin.readPrefix s.tinlen.toNat) ≠ .ok raw) →
        exec .pwDecrypt s = .next { s with err := 0x04#8, errf := true }) ∧
      (∀ raw, b64Decode (s.tin.readPrefix s.tinlen.toNat) = .ok raw →
        (raw.length < 8 → exec .pwDecrypt s = .next { s with err := 0x04#8, errf := true }) ∧
        (8 ≤ raw.length → ∃ (pt : List Byte) (cb : Block),
          cb.toList = raw.take 8 ++ List.replicate 8 0x00#8 ∧ IsCtrOutput cb s.pks 14 (raw.drop 8) pt ∧
          ((∀ out, utf8Decode pt ≠ .ok out) →
            exec .pwDecrypt s = .next { s with err := 0x03#8, errf := true }) ∧
          (∀ out, utf8Decode pt = .ok out →
            ∃ t, exec .pwDecrypt s = .next t ∧
              t = { s with tout := t.tout, toutlen := BitVec.ofNat 32 out.length, err := 0x00#8 } ∧
              HoldsOutput s.tout t.tout out))))

/-- `PW.GETDIGEST` puts the 32 digest bytes, zero-extended, in `TOUT`; `PW.GETPASSWORD` puts `PW[0..PWLEN)` there; both
fault with `NoObject` where there is none, and change nothing else (R242, R243). -/
def Obligations.AccessorsResult : Prop :=
  decode 0x00000043#32 = some .pwGetdigest ∧ decode 0x00000044#32 = some .pwGetpassword ∧
  ∀ s : State,
    (s.objv = false →
      exec .pwGetdigest s = .next { s with err := 0x12#8, errf := true } ∧
      exec .pwGetpassword s = .next { s with err := 0x12#8, errf := true }) ∧
    (s.objv = true →
      (∃ t, exec .pwGetdigest s = .next t ∧
        t = { s with tout := t.tout, toutlen := 32#32, err := 0x00#8 } ∧
        (∀ i (hi : i < 32), t.tout.read i = (s.digest[i]).setWidth 32) ∧
        ∀ i, 32 ≤ i → t.tout.read i = s.tout.read i) ∧
      (∃ t, exec .pwGetpassword s = .next t ∧
        t = { s with tout := t.tout, toutlen := BitVec.ofNat 32 s.pwlen, err := 0x00#8 } ∧
        (∀ i, i < s.pwlen → t.tout.read i = s.pw.read i) ∧
        ∀ i, s.pwlen ≤ i → t.tout.read i = s.tout.read i))

/-! ### The functions: AES -/

/-- `SBOX` is the affine image of the field inverse, a permutation without a fixed point, and `INV_SBOX` is its exact
inverse on both sides (R111, R150); `SubBytes` and `InvSubBytes` apply them to every byte (R134, R151). -/
def Obligations.SubstitutionTablesAgree : Prop :=
  (∀ (s : Block) (i : Nat) (h : i < 16), (subBytes s)[i] = sbox s[i] ∧ (invSubBytes s)[i] = invSbox s[i]) ∧
  (∀ a : Byte, ∃ b : Byte, (a = 0x00#8 → b = 0x00#8) ∧ (a ≠ 0x00#8 → gmul a b = 0x01#8) ∧
    sbox a = b ^^^ b.rotateLeft 1 ^^^ b.rotateLeft 2 ^^^ b.rotateLeft 3 ^^^ b.rotateLeft 4 ^^^ 0x63#8) ∧
  (∀ a : Byte, sbox a ≠ a) ∧ (∀ a : Byte, invSbox (sbox a) = a) ∧ ∀ a : Byte, sbox (invSbox a) = a

/-- `gmul` is commutative, associative and distributes over XOR, with 1, 0, 2 and 3 acting as R131 says. -/
def Obligations.GmulIsFieldMultiplication : Prop :=
  (∀ a b : Byte, gmul a b = gmul b a) ∧ (∀ a b c : Byte, gmul (gmul a b) c = gmul a (gmul b c)) ∧
  (∀ a b c : Byte, gmul a (b ^^^ c) = gmul a b ^^^ gmul a c) ∧
  ∀ a : Byte, gmul a 0x01#8 = a ∧ gmul a 0x00#8 = 0x00#8 ∧ gmul a 0x02#8 = xtime a ∧ gmul a 0x03#8 = xtime a ^^^ a

/-- The key schedule word by word: the key first, then each word from the one before it and the one `Nk` before it, by
case (a), (b) or (c), with the round constants 01, 02, 04, .., 36; its `16×(Nr+1)` bytes begin with the key unchanged
(R110, R114, R115, R116 (a)). -/
def Obligations.KeyExpansionRecurrence : Prop :=
  (List.range 10).map roundConstant =
    [0x01#8, 0x02#8, 0x04#8, 0x08#8, 0x10#8, 0x20#8, 0x40#8, 0x80#8, 0x1B#8, 0x36#8] ∧
  ∀ (key : List Byte) (nk : Nat), nk ∈ [4, 6, 8] →
    (keyExpansionWords key nk).length = 4 * (nk + 6 + 1) ∧
    (keyExpansion key nk).length = 16 * (nk + 6 + 1) ∧
    (key.length = 4 * nk → (keyExpansion key nk).take (4 * nk) = key) ∧
    (∀ i, i < nk → scheduleWord (keyExpansionWords key nk) i = keyWord key i) ∧
    ∀ i, nk ≤ i → i < 4 * (nk + 6 + 1) →
      scheduleWord (keyExpansionWords key nk) i =
        xorWord (scheduleWord (keyExpansionWords key nk) (i - nk))
          (if i % nk = 0 then
            addRoundConstant (subWord (rotWord (scheduleWord (keyExpansionWords key nk) (i - 1))))
              (roundConstant (i / nk - 1))
          else if nk = 8 ∧ i % nk = 4 then subWord (scheduleWord (keyExpansionWords key nk) (i - 1))
          else scheduleWord (keyExpansionWords key nk) (i - 1))

/-- `ShiftRows` and `InvShiftRows` by their lists of source indices, `MixColumns` and `InvMixColumns` by their four
equations a column; each inverse undoes its transformation on both sides (R135, R136, R152, R153); `AddRoundKey` XORs in
bytes `16r .. 16r+15` of the schedule (R133). -/
def Obligations.LinearLayersAreExplicit : Prop :=
  (∀ (s : Block) (ks : Schedule) (r i : Nat) (hr : r ≤ 14) (hi : i < 16),
    (addRoundKey s ks r)[i] = s[i] ^^^ ks[16 * r + i]) ∧
  (∀ (s : Block) (ks : Schedule) (r : Nat), r ≤ 14 → addRoundKey (addRoundKey s ks r) ks r = s) ∧
  (∀ s : Block,
    shiftRows s = #v[s[0], s[5], s[10], s[15], s[4], s[9], s[14], s[3], s[8], s[13], s[2], s[7], s[12], s[1], s[6],
      s[11]] ∧
    invShiftRows s = #v[s[0], s[13], s[10], s[7], s[4], s[1], s[14], s[11], s[8], s[5], s[2], s[15], s[12], s[9],
      s[6], s[3]]) ∧
  (∀ (s : Block) (c : Nat) (h : c < 4),
    (mixColumns s)[4 * c] = gmul s[4 * c] 2#8 ^^^ gmul s[4 * c + 1] 3#8 ^^^ s[4 * c + 2] ^^^ s[4 * c + 3] ∧
    (mixColumns s)[4 * c + 1] = s[4 * c] ^^^ gmul s[4 * c + 1] 2#8 ^^^ gmul s[4 * c + 2] 3#8 ^^^ s[4 * c + 3] ∧
    (mixColumns s)[4 * c + 2] = s[4 * c] ^^^ s[4 * c + 1] ^^^ gmul s[4 * c + 2] 2#8 ^^^ gmul s[4 * c + 3] 3#8 ∧
    (mixColumns s)[4 * c + 3] = gmul s[4 * c] 3#8 ^^^ s[4 * c + 1] ^^^ s[4 * c + 2] ^^^ gmul s[4 * c + 3] 2#8 ∧
    (invMixColumns s)[4 * c] =
      gmul s[4 * c] 14#8 ^^^ gmul s[4 * c + 1] 11#8 ^^^ gmul s[4 * c + 2] 13#8 ^^^ gmul s[4 * c + 3] 9#8 ∧
    (invMixColumns s)[4 * c + 1] =
      gmul s[4 * c] 9#8 ^^^ gmul s[4 * c + 1] 14#8 ^^^ gmul s[4 * c + 2] 11#8 ^^^ gmul s[4 * c + 3] 13#8 ∧
    (invMixColumns s)[4 * c + 2] =
      gmul s[4 * c] 13#8 ^^^ gmul s[4 * c + 1] 9#8 ^^^ gmul s[4 * c + 2] 14#8 ^^^ gmul s[4 * c + 3] 11#8 ∧
    (invMixColumns s)[4 * c + 3] =
      gmul s[4 * c] 11#8 ^^^ gmul s[4 * c + 1] 13#8 ^^^ gmul s[4 * c + 2] 9#8 ^^^ gmul s[4 * c + 3] 14#8) ∧
  ∀ s : Block, invShiftRows (shiftRows s) = s ∧ shiftRows (invShiftRows s) = s ∧
    invMixColumns (mixColumns s) = s ∧ mixColumns (invMixColumns s) = s

/-- `InvCipher` and `Cipher` undo each other on every block, under every schedule and with every number of rounds, and so
do the two commands: `AES.INVCIPHER` after `AES.CIPHER`, or before it, restores the state but for `ERR` (R141, R154). -/
def Obligations.InverseCipherUndoesCipher : Prop :=
  (∀ (b : Block) (ks : Schedule) (nr : Nat),
    invCipher (cipher b ks nr) ks nr = b ∧ cipher (invCipher b ks nr) ks nr = b) ∧
  ∀ s : State, s.ksv = true →
    (∃ t, exec .aesCipher s = .next t ∧ exec .aesInvcipher t = .next { s with err := 0x00#8 }) ∧
    (∃ t, exec .aesInvcipher s = .next t ∧ exec .aesCipher t = .next { s with err := 0x00#8 })

/-! ### The functions: MD5 -/

/-- The padded message: the message, 0x80, zero bytes, the bit length as four little-endian bytes, four zero bytes;
`64 × (n div 64 + 1)` bytes, or 64 more where `n mod 64 ≥ 56` (R167). -/
def Obligations.Md5PaddingLayout : Prop :=
  ∀ m : List Byte, m.length < 2 ^ 29 →
    (md5Pad m).length = 64 * (m.length / 64 + if m.length % 64 ≤ 55 then 1 else 2) ∧
    (md5Pad m).take m.length = m ∧ (md5Pad m).getD m.length 0#8 = 0x80#8 ∧
    (∀ j, m.length < j → j < (md5Pad m).length - 8 → (md5Pad m).getD j 0#8 = 0x00#8) ∧
    (∀ k, k < 4 →
      (md5Pad m).getD ((md5Pad m).length - 8 + k) 0#8 = BitVec.ofNat 8 (8 * m.length / 256 ^ k) ∧
      (md5Pad m).getD ((md5Pad m).length - 4 + k) 0#8 = 0x00#8)

/-- A message of whole blocks is hashed by its own blocks and then one block of padding (R176 (c)); and the two known
answers of the source (R175). -/
def Obligations.Md5WholeBlocksThenPadding : Prop :=
  (∀ m : List Byte, m.length % 64 = 0 → m.length < 2 ^ 29 →
    md5Hash m = md5Block ((blocks64 m).foldl md5Block md5Iv)
      (0x80#8 :: List.replicate 55 0x00#8 ++ le32 (BitVec.ofNat 32 (8 * m.length)) ++ List.replicate 4 0x00#8)) ∧
  md5Sum [] = [0xd4, 0x1d, 0x8c, 0xd9, 0x8f, 0x00, 0xb2, 0x04, 0xe9, 0x80, 0x09, 0x98, 0xec, 0xf8, 0x42, 0x7e] ∧
  md5Sum [0x61, 0x62, 0x63] =
    [0x90, 0x01, 0x50, 0x98, 0x3c, 0xd2, 0x4f, 0xb0, 0xd6, 0x96, 0x3f, 0x7d, 0x28, 0xe1, 0x7f, 0x72]

/-- The host that pads a message of at most 55 bytes into `BIN[0..64)` gets from `MD5.INIT` and `MD5.BLOCK` the hash words
that `MD5.DIGEST` computes for the message (R182, R183, R315). -/
def Obligations.Md5BlockByBlockEqualsDigest : Prop :=
  ∀ (s d : State) (m : List Byte), m.length ≤ 55 → s.bin.readPrefix 64 = md5Pad m →
    d.binlen.toNat = m.length → d.bin.readPrefix m.length = m → m.length ≤ d.params.bufBytes →
    ∃ t u v, exec .md5Init s = .next t ∧ exec .md5Block t = .next u ∧ exec .md5Digest d = .next v ∧ v.err = 0x00#8 ∧
      u.h = v.h

/-! ### The functions: counter mode -/

/-- A message cut at a multiple of 16 can be transformed piece by piece (R312). -/
def Obligations.CtrXformInPieces : Prop :=
  ∀ (cb : Block) (ks : Schedule) (nr : Nat) (m n : List Byte), m.length % 16 = 0 →
    (ctrXform cb (m ++ n) ks nr).1 =
      (ctrXform cb m ks nr).1 ++ (ctrXform (ctrXform cb m ks nr).2 n ks nr).1 ∧
    (ctrXform cb (m ++ n) ks nr).2 = (ctrXform (ctrXform cb m ks nr).2 n ks nr).2

/-- `CTR.XFORM` over its own output, from the start value of `CTRBLK` and under the same schedule, gives the message back
(R192, R314). -/
def Obligations.CtrXformTwiceRestores : Prop :=
  ∀ s t : State, s.params.Legal → exec .ctrXform s = .next t → t.err = 0x00#8 →
    ∃ u, exec .ctrXform { t.copyBytesBack with ctrblk := s.ctrblk } = .next u ∧ u.err = 0x00#8 ∧
      u.outputBytes = s.bin.readPrefix s.binlen.toNat ∧ u.ctrblk = t.ctrblk

/-! ### The functions: codecs -/

/-- The UTF-8 table: the bytes of one code point in each of the four ranges, no bytes at 0x110000 and above; the encoding
of a text is the concatenation, or fails as a whole (R201). -/
def Obligations.Utf8EncodingTable : Prop :=
  (∀ c : Word,
    (c.toNat < 0x80 → utf8EncOne c = .ok [BitVec.ofNat 8 c.toNat]) ∧
    (0x80 ≤ c.toNat → c.toNat < 0x800 →
      utf8EncOne c = .ok [BitVec.ofNat 8 (0xC0 + c.toNat / 64), BitVec.ofNat 8 (0x80 + c.toNat % 64)]) ∧
    (0x800 ≤ c.toNat → c.toNat < 0x10000 →
      utf8EncOne c = .ok [BitVec.ofNat 8 (0xE0 + c.toNat / 4096), BitVec.ofNat 8 (0x80 + c.toNat / 64 % 64),
        BitVec.ofNat 8 (0x80 + c.toNat % 64)]) ∧
    (0x10000 ≤ c.toNat → c.toNat < 0x110000 →
      utf8EncOne c = .ok [BitVec.ofNat 8 (0xF0 + c.toNat / 262144), BitVec.ofNat 8 (0x80 + c.toNat / 4096 % 64),
        BitVec.ofNat 8 (0x80 + c.toNat / 64 % 64), BitVec.ofNat 8 (0x80 + c.toNat % 64)]) ∧
    (0x110000 ≤ c.toNat → utf8EncOne c = .error .invalidCharacterCode)) ∧
  ∀ t : List Word,
    ((∃ c ∈ t, 0x110000 ≤ c.toNat) → utf8Encode t = .error .invalidCharacterCode) ∧
    ((∀ c ∈ t, c.toNat < 0x110000) → utf8Encode t = .ok (t.flatMap fun c => (utf8EncOne c).toOption.getD []))

/-- `Utf8Dec` accepts exactly the byte strings `Utf8Enc` produces, and gives back the text; everything else is
`InvalidUtf8Sequence` (R204, R207). -/
def Obligations.Utf8RoundTrip : Prop :=
  (∀ (t : List Word) (b : List Byte), utf8Encode t = .ok b ↔ utf8Decode b = .ok t) ∧
  (∀ t : List Word, (∀ c ∈ t, c.toNat < 0x110000) → ∃ b, utf8Encode t = .ok b) ∧
  ∀ (b : List Byte) (f : CmdFault), utf8Decode b = .error f → f = .invalidUtf8Sequence

/-- The Base64 alphabet, and its inverse map: every code point outside it has no value (R210). -/
def Obligations.Base64AlphabetIsStandard : Prop :=
  (List.range 64).map (fun v => b64Char (BitVec.ofNat 6 v)) =
    "ABCDEFGHIJKLMNOPQRSTUVWXYZabcdefghijklmnopqrstuvwxyz0123456789+/".toList.map
      (fun c => BitVec.ofNat 32 c.toNat) ∧
  ∀ (c : Word) (v : BitVec 6), b64Val c = some v ↔ b64Char v = c

/-- `B64Enc` group by group: four characters for the bits 23:18, 17:12, 11:6 and 5:0 of three bytes, the first most
significant, and `==` or `=` at the end of a last group of one or two bytes (R211). `B64Dec` accepts exactly the texts
`B64Enc` produces, and gives back the bytes, everything else is `DecodeFailure`; the text has `4 × ceil(n / 3)` characters
(R211, R213, R216). -/
def Obligations.Base64RoundTrip : Prop :=
  b64Encode [] = [] ∧
  (∀ x : Byte, b64Encode [x] =
    [b64Char (BitVec.ofNat 6 (x.toNat * 2 ^ 16 / 2 ^ 18)), b64Char (BitVec.ofNat 6 (x.toNat * 2 ^ 16 / 2 ^ 12)),
      0x3D#32, 0x3D#32]) ∧
  (∀ x y : Byte, b64Encode [x, y] =
    [b64Char (BitVec.ofNat 6 ((x.toNat * 2 ^ 16 + y.toNat * 2 ^ 8) / 2 ^ 18)),
      b64Char (BitVec.ofNat 6 ((x.toNat * 2 ^ 16 + y.toNat * 2 ^ 8) / 2 ^ 12)),
      b64Char (BitVec.ofNat 6 ((x.toNat * 2 ^ 16 + y.toNat * 2 ^ 8) / 2 ^ 6)), 0x3D#32]) ∧
  (∀ (x y z : Byte) (b : List Byte), b64Encode (x :: y :: z :: b) =
    [b64Char (BitVec.ofNat 6 ((x.toNat * 2 ^ 16 + y.toNat * 2 ^ 8 + z.toNat) / 2 ^ 18)),
      b64Char (BitVec.ofNat 6 ((x.toNat * 2 ^ 16 + y.toNat * 2 ^ 8 + z.toNat) / 2 ^ 12)),
      b64Char (BitVec.ofNat 6 ((x.toNat * 2 ^ 16 + y.toNat * 2 ^ 8 + z.toNat) / 2 ^ 6)),
      b64Char (BitVec.ofNat 6 (x.toNat * 2 ^ 16 + y.toNat * 2 ^ 8 + z.toNat))] ++ b64Encode b) ∧
  (∀ (t : List Word) (f : CmdFault), b64Decode t = .error f → f = .decodeFailure) ∧
  (∀ (b : List Byte) (t : List Word), b64Encode b = t ↔ b64Decode t = .ok b) ∧
  ∀ b : List Byte, (b64Encode b).length = 4 * ((b.length + 2) / 3)

/-! ### The functions: the façade -/

/-- The object's schedule: the seed is the first 32 password bytes, zero-padded; its first half under its own schedule is
`r`; the schedule is that of `r ++ r` and begins with it; bytes beyond the 32nd do not matter (R234). -/
def Obligations.ObjectScheduleFromSeed : Prop :=
  ∀ pb : List Byte, ∃ r : Block,
    r = cipher (padTo 16 (pb.take 16)) (padTo 240 (keyExpansion (padTo 32 pb).toList 8)) 14 ∧
    (createKeySchedule pb).toList = keyExpansion (r.toList ++ r.toList) 8 ∧
    (createKeySchedule pb).toList.take 32 = r.toList ++ r.toList ∧
    ∀ qb : List Byte, (∀ i, i < 32 → qb.getD i 0#8 = pb.getD i 0#8) → createKeySchedule qb = createKeySchedule pb

/-- `PW.GETPASSWORD` returns the password exactly as `PW.CONSTRUCT` received it, and `PW.GETDIGEST` its digest, 32
lowercase hexadecimal characters, whatever the collaborator `SHA1` is: `HexEnc(MD5(s2 ++ pb))`, where `s2` is
`HexEnc(SHA1(s1))` and `s1` is `HexEnc(MD5(pb))` (R233, R236, R242, R243). `SHA1` is the external function of the instance,
or the default function, which pads as R261 says and has the known answers of R263; the digest of "password" is that of
R233. -/
def Obligations.AccessorsReturnConstructed : Prop :=
  (∀ (k : Nat) (m : List Byte), sha1Of (.external k) m = Config.externalSha1 k m) ∧
  (∀ m : List Byte, sha1Of .standard m = sha1Standard m) ∧
  (∀ m : List Byte, m.length < 2 ^ 61 →
    (sha1Pad m).length = 64 * (m.length / 64 + if m.length % 64 ≤ 55 then 1 else 2) ∧
    (sha1Pad m).take m.length = m ∧ (sha1Pad m).getD m.length 0#8 = 0x80#8 ∧
    (∀ j, m.length < j → j < (sha1Pad m).length - 8 → (sha1Pad m).getD j 0#8 = 0x00#8) ∧
    ∀ k, k < 8 → (sha1Pad m).getD ((sha1Pad m).length - 1 - k) 0#8 = BitVec.ofNat 8 (8 * m.length / 256 ^ k)) ∧
  (sha1Standard []).toList =
    [0xda, 0x39, 0xa3, 0xee, 0x5e, 0x6b, 0x4b, 0x0d, 0x32, 0x55, 0xbf, 0xef, 0x95, 0x60, 0x18, 0x90, 0xaf, 0xd8, 0x07,
    0x09] ∧
  (sha1Standard [0x61, 0x62, 0x63]).toList =
    [0xa9, 0x99, 0x3e, 0x36, 0x47, 0x06, 0x81, 0x6a, 0xba, 0x3e, 0x25, 0x71, 0x78, 0x50, 0xc2, 0x6c, 0x9c, 0xd0, 0xd8,
    0x9d] ∧
  (sha1Standard ("5f4dcc3b5aa765d61d8327deb882cf99".toList.map fun c => BitVec.ofNat 8 c.toNat)).toList =
    [0x55, 0xc3, 0xb5, 0x38, 0x6c, 0x48, 0x6f, 0xeb, 0x66, 0x2a, 0x07, 0x85, 0xf3, 0x40, 0x93, 0x8f, 0x51, 0x8d, 0x54,
    0x7f] ∧
  (sha1Standard ("d41d8cd98f00b204e9800998ecf8427e".toList.map fun c => BitVec.ofNat 8 c.toNat)).toList =
    [0x67, 0xa7, 0x43, 0x06, 0xb0, 0x6d, 0x0c, 0x01, 0x62, 0x4f, 0xe0, 0xd0, 0x24, 0x9a, 0x57, 0x0f, 0x4d, 0x09, 0x37,
    0x47] ∧
  createPasswordDigest .standard [0x70, 0x61, 0x73, 0x73, 0x77, 0x6f, 0x72, 0x64] =
    ("0fe89a82b7714535af9e5bbd617ed301".toList.map fun c => BitVec.ofNat 8 c.toNat) ∧
  ∀ s t : State, s.params.Legal → exec .pwConstruct s = .next t → t.err = 0x00#8 →
    ∃ u v, exec .pwGetpassword t = .next u ∧ u.err = 0x00#8 ∧ u.outputText = s.tin.readPrefix s.tinlen.toNat ∧
      exec .pwGetdigest t = .next v ∧ v.err = 0x00#8 ∧ v.outputText.length = 32 ∧
      (∀ c ∈ v.outputText, isHexByte (c.setWidth 8) ∧ c.toNat < 0x80) ∧
      ∀ pb, utf8Encode (s.tin.readPrefix s.tinlen.toNat) = .ok pb →
        v.outputText = (createPasswordDigest s.params.sha1 pb).map (fun b => b.setWidth 32) ∧
        ∃ s1 s2 : List Byte, IsHexOf (md5Sum pb) s1 ∧ IsHexOf (sha1Of s.params.sha1 s1).toList s2 ∧
          IsHexOf (md5Sum (s2 ++ pb)) (createPasswordDigest s.params.sha1 pb)

/-- Whatever text `PW.ENCRYPT` encrypts under an object, at whatever time, `PW.DECRYPT` of its output under the same object
completes and gives the text back (R241 (a)). -/
def Obligations.DecryptRestoresPlaintext : Prop :=
  ∀ s t : State, s.params.Legal → exec .pwEncrypt s = .next t → t.err = 0x00#8 →
    ∃ u, exec .pwDecrypt t.copyTextBack = .next u ∧ u.err = 0x00#8 ∧
      u.outputText = s.tin.readPrefix s.tinlen.toNat

/-- The ciphertexts of one plaintext under one object at two times are equal exactly when the seconds are equal and the
milliseconds are equal modulo 256; and where they are, two plaintexts leak their XOR (R237, R241, R313). The nonce is the
seconds, most significant byte first, and the low 8 bits of the milliseconds four times (R237); its Counter Block is the
nonce and eight zero bytes (R238, R240). -/
def Obligations.NonceDecidesCiphertext : Prop :=
  (∀ x : TimeSample, makeNonce x =
    [BitVec.ofNat 8 (x.sec.toNat / 2 ^ 24), BitVec.ofNat 8 (x.sec.toNat / 2 ^ 16), BitVec.ofNat 8 (x.sec.toNat / 2 ^ 8),
      BitVec.ofNat 8 x.sec.toNat, BitVec.ofNat 8 x.ms.toNat, BitVec.ofNat 8 x.ms.toNat, BitVec.ofNat 8 x.ms.toNat,
      BitVec.ofNat 8 x.ms.toNat]) ∧
  (∀ nonce : List Byte, 8 ≤ nonce.length → (nonceBlock nonce).toList = nonce.take 8 ++ List.replicate 8 0x00#8) ∧
  ∀ (pks : Schedule) (x y : TimeSample) (p q : List Byte),
    (b64Encode (sealBytes pks (makeNonce x) p) = b64Encode (sealBytes pks (makeNonce y) p) ↔
      x.sec = y.sec ∧ x.ms.toNat % 256 = y.ms.toNat % 256) ∧
    (x.sec = y.sec → x.ms.toNat % 256 = y.ms.toNat % 256 → ∀ j, j < p.length → j < q.length →
      (sealBytes pks (makeNonce x) p).getD (8 + j) 0#8 ^^^ (sealBytes pks (makeNonce y) q).getD (8 + j) 0#8 =
        p.getD j 0#8 ^^^ q.getD j 0#8)

/-! ### Host scripts -/

/-- The pseudo-lines `ldbytes` and `ldtext`: run on a legal instance, for an input that fits, they put exactly the input in
the input buffer from index 0 on and its length in the length register, and change nothing else (R97, R98, R65). A `time`
line states the sample of the next `PW.ENCRYPT` after it, wherever it stands in a script and whatever samples are pending,
and of no other one, and changes nothing else; so a script placed as events does too (R97; log entry 14). -/
def Obligations.ScriptsLoadInputs : Prop :=
  (∀ (s t : State) (ls : List ScriptLine) (x : TimeSample), runScript s ls = some t →
    ∃ u, runScript s (ls ++ [.time x]) = some u ∧ u = { t with timeSamples := u.timeSamples } ∧
      u.timeSample = x ∧ u.takeSample.timeSamples = t.takeSample.timeSamples) ∧
  (∀ (s : State) (ls : List ScriptLine) (x : TimeSample), s.events = [] →
    step (s.loadScript (.time x :: ls)) = .next ((s.driveTime x).loadScript ls) ∧
    ∃ t u, step (s.loadScript [.cmd .pwEncrypt, .time x]) = .next t ∧
      exec .pwEncrypt { s with events := [.driveTime x], cmd := 0x00000041#32, response := .written } = .next t ∧
      step t = .next u ∧ u = { t with events := [], timeSamples := u.timeSamples } ∧ u.timeSample = x) ∧
  ∀ s : State, s.params.Legal → s.MemoriesCanonical →
    (∀ b : List Byte, b.length ≤ s.params.bufBytes → ∃ t, runScript s (ldbytes b) = some t ∧
      t = { s with bin := t.bin, binlen := BitVec.ofNat 32 b.length, response := .written } ∧
      t.bin.readPrefix b.length = b ∧ ∀ i, b.length ≤ i → t.bin.read i = s.bin.read i) ∧
    ∀ text : List Word, text.length ≤ s.params.bufCps → ∃ t, runScript s (ldtext text) = some t ∧
      t = { s with tin := t.tin, tinlen := BitVec.ofNat 32 text.length, response := .written } ∧
      t.tin.readPrefix text.length = text ∧ ∀ i, text.length ≤ i → t.tin.read i = s.tin.read i
end

