-- ==== Sys2Proof/Laws/Memory.lean ====
section
/-! SUPPORT. The laws of memories: what a read gives after a write, and that every operation keeps the canonical form. -/

namespace Sys2Proof.Machine

variable {w : Nat}

@[simp] theorem Memory.read_nil (i : Nat) : Memory.read ([] : Memory w) i = 0#w := rfl

theorem Memory.read_cons (a : Nat) (v : BitVec w) (m : Memory w) (i : Nat) :
    Memory.read ((a, v) :: m) i = if a = i then v else Memory.read m i := rfl

/-- Below every listed index a memory reads as 0. -/
theorem Memory.read_of_lt (m : Memory w) (i : Nat) (h : ∀ c ∈ m, i < c.1) : Memory.read m i = 0#w := by
  induction m with
  | nil => rfl
  | cons c m ih =>
    have hc := h c (by simp)
    rw [Memory.read_cons, if_neg (by omega), ih fun d hd => h d (by simp [hd])]

/-- `Memory.cell` reads as its value at its own index and as the rest elsewhere, where the rest lies above it. -/
theorem Memory.read_cell (i : Nat) (v : BitVec w) (m : Memory w) (j : Nat) (h : ∀ c ∈ m, i < c.1) :
    Memory.read (Memory.cell i v m) j = if j = i then v else Memory.read m j := by
  unfold Memory.cell
  split
  · rename_i hv
    split
    · rename_i hj
      rw [hj, hv]
      exact Memory.read_of_lt m i h
    · rfl
  · rw [Memory.read_cons]
    by_cases hj : i = j
    · simp [hj]
    · rw [if_neg hj, if_neg fun h => hj h.symm]

theorem Memory.mem_cell {i : Nat} {v : BitVec w} {m : Memory w} {c : Nat × BitVec w}
    (h : c ∈ Memory.cell i v m) : (c = (i, v) ∧ v ≠ 0#w) ∨ c ∈ m := by
  unfold Memory.cell at h
  split at h
  · exact .inr h
  · rename_i hv
    rcases List.mem_cons.mp h with rfl | h
    · exact .inl ⟨rfl, hv⟩
    · exact .inr h

theorem Memory.cell_wf {i : Nat} {v : BitVec w} {m : Memory w} (hm : m.wf) (h : ∀ c ∈ m, i < c.1) :
    (Memory.cell i v m).wf := by
  unfold Memory.cell
  split
  · exact hm
  · rename_i hv
    refine ⟨List.pairwise_cons.mpr ⟨fun c hc => h c hc, hm.1⟩, fun c hc => ?_⟩
    rcases List.mem_cons.mp hc with rfl | hc
    · exact hv
    · exact hm.2 c hc

theorem Memory.wf_tail {c : Nat × BitVec w} {m : Memory w} (h : Memory.wf (c :: m)) : Memory.wf m :=
  ⟨(List.pairwise_cons.mp h.1).2, fun d hd => h.2 d (by simp [hd])⟩

theorem Memory.wf_head_lt {c : Nat × BitVec w} {m : Memory w} (h : Memory.wf (c :: m)) : ∀ d ∈ m, c.1 < d.1 :=
  (List.pairwise_cons.mp h.1).1

/-- What a write leaves in a memory: its own cell, and cells that stood there. -/
theorem Memory.mem_write {m : Memory w} {i : Nat} {v : BitVec w} {c : Nat × BitVec w}
    (h : c ∈ Memory.write m i v) : (c = (i, v) ∧ v ≠ 0#w) ∨ c ∈ m := by
  induction m with
  | nil => exact Memory.mem_cell h
  | cons d m ih =>
    simp only [Memory.write] at h
    split at h
    · rcases List.mem_cons.mp h with rfl | h
      · exact .inr (by simp)
      · rcases ih h with h | h
        · exact .inl h
        · exact .inr (by simp [h])
    · split at h
      · rcases Memory.mem_cell h with h | h
        · exact .inl h
        · exact .inr (by simp [h])
      · exact Memory.mem_cell h

/-- A write keeps the canonical form. -/
theorem Memory.write_wf {m : Memory w} (i : Nat) (v : BitVec w) (hm : m.wf) : (Memory.write m i v).wf := by
  induction m with
  | nil => exact Memory.cell_wf hm (by simp)
  | cons d m ih =>
    have hd := Memory.wf_head_lt hm
    have ht := Memory.wf_tail hm
    simp only [Memory.write]
    split
    · rename_i hlt
      have hw := ih ht
      refine ⟨List.pairwise_cons.mpr ⟨fun c hc => ?_, hw.1⟩, fun c hc => ?_⟩
      · rcases Memory.mem_write hc with ⟨rfl, -⟩ | hc
        · exact hlt
        · exact hd c hc
      · rcases List.mem_cons.mp hc with rfl | hc
        · exact hm.2 _ (by simp)
        · exact hw.2 c hc
    · split
      · rename_i heq
        exact Memory.cell_wf ht fun c hc => heq ▸ hd c hc
      · refine Memory.cell_wf hm fun c hc => ?_
        rcases List.mem_cons.mp hc with rfl | hc
        · omega
        · have := hd c hc; omega

/-- A read after a write: the value at the index written, what stood there elsewhere. -/
theorem Memory.read_write {m : Memory w} (hm : m.wf) (i : Nat) (v : BitVec w) (j : Nat) :
    Memory.read (Memory.write m i v) j = if j = i then v else Memory.read m j := by
  induction m with
  | nil => exact Memory.read_cell i v [] j (by simp)
  | cons d m ih =>
    obtain ⟨a, u⟩ := d
    have hd := Memory.wf_head_lt hm
    have ht := Memory.wf_tail hm
    simp only [Memory.write]
    split
    · rename_i hlt
      rw [Memory.read_cons, Memory.read_cons, ih ht]
      by_cases h1 : a = j <;> by_cases h2 : j = i <;> simp_all
    · split
      · rename_i heq
        subst heq
        rw [Memory.read_cell _ _ _ _ hd, Memory.read_cons]
        by_cases h2 : j = a
        · simp [h2]
        · rw [if_neg h2, if_neg h2, if_neg (fun h => h2 h.symm)]
      · refine Memory.read_cell i v _ j fun c hc => ?_
        rcases List.mem_cons.mp hc with rfl | hc
        · show i < a; omega
        · have := hd c hc; simp only at this; omega

/-! ### Prefixes -/

theorem Memory.mem_cellsFrom {i : Nat} {xs : List (BitVec w)} {c : Nat × BitVec w}
    (h : c ∈ Memory.cellsFrom i xs) : i ≤ c.1 ∧ c.1 < i + xs.length ∧ c.2 ≠ 0#w ∧ c.2 ∈ xs := by
  induction xs generalizing i with
  | nil => simp [Memory.cellsFrom] at h
  | cons x xs ih =>
    rcases Memory.mem_cell h with ⟨rfl, hx⟩ | h
    · simp [hx]
    · obtain ⟨h1, h2, h3, h4⟩ := ih h
      exact ⟨by omega, by simp only [List.length_cons]; omega, h3, by simp [h4]⟩

theorem Memory.cellsFrom_wf (i : Nat) (xs : List (BitVec w)) : (Memory.cellsFrom i xs).wf := by
  induction xs generalizing i with
  | nil => exact ⟨List.Pairwise.nil, by simp [Memory.cellsFrom]⟩
  | cons x xs ih => exact Memory.cell_wf (ih (i + 1)) fun c hc => by have := (Memory.mem_cellsFrom hc).1; omega

theorem Memory.read_cellsFrom (i : Nat) (xs : List (BitVec w)) (j : Nat) :
    Memory.read (Memory.cellsFrom i xs) (i + j) = xs.getD j 0#w := by
  induction xs generalizing i j with
  | nil => simp [Memory.cellsFrom]
  | cons x xs ih =>
    rw [Memory.cellsFrom, Memory.read_cell _ _ _ _ fun c hc => by have := (Memory.mem_cellsFrom hc).1; omega]
    cases j with
    | zero => simp
    | succ j =>
      have := ih (i + 1) j
      rw [show i + 1 + j = i + (j + 1) by omega] at this
      simp [this]

/-- A read passes over cells that stand elsewhere. -/
theorem Memory.read_append (m n : Memory w) (i : Nat) :
    Memory.read (m ++ n) i = if ∃ c ∈ m, c.1 = i then Memory.read m i else Memory.read n i := by
  induction m with
  | nil => simp
  | cons c m ih =>
    obtain ⟨a, v⟩ := c
    rw [List.cons_append, Memory.read_cons, Memory.read_cons, ih]
    by_cases h : a = i <;> simp [h]

theorem Memory.read_not_listed {m : Memory w} {i : Nat} (h : ¬ ∃ c ∈ m, c.1 = i) : Memory.read m i = 0#w := by
  induction m with
  | nil => rfl
  | cons c m ih =>
    obtain ⟨a, v⟩ := c
    rw [Memory.read_cons, if_neg fun e => h ⟨(a, v), by simp, e⟩, ih fun ⟨c, hc, e⟩ => h ⟨c, by simp [hc], e⟩]

theorem Memory.read_filter (m : Memory w) (n i : Nat) :
    Memory.read (m.filter fun c => decide (n ≤ c.1)) i = if n ≤ i then Memory.read m i else 0#w := by
  induction m with
  | nil => simp
  | cons c m ih =>
    obtain ⟨a, v⟩ := c
    by_cases hn : n ≤ a
    · rw [List.filter_cons_of_pos (by simpa using hn), Memory.read_cons, Memory.read_cons, ih]
      by_cases ha : a = i
      · subst ha; simp [hn]
      · simp [ha]
    · rw [List.filter_cons_of_neg (by simpa using hn), ih, Memory.read_cons]
      by_cases hi : n ≤ i
      · rw [if_pos hi, if_pos hi, if_neg (by omega)]
      · rw [if_neg hi, if_neg hi]

/-- A read after a prefix is written: its element below its length, what stood there from its length on. -/
theorem Memory.read_writePrefix (m : Memory w) (xs : List (BitVec w)) (i : Nat) :
    Memory.read (Memory.writePrefix m xs) i = if i < xs.length then xs.getD i 0#w else Memory.read m i := by
  have h0 : Memory.read (Memory.cellsFrom 0 xs) i = xs.getD i 0#w := by
    have := Memory.read_cellsFrom 0 xs i
    rwa [Nat.zero_add] at this
  rw [Memory.writePrefix, Memory.read_append, Memory.read_filter, h0]
  by_cases hi : i < xs.length
  · rw [if_pos hi]
    split
    · rfl
    · rename_i hc
      rw [if_neg (by omega), ← h0]
      exact (Memory.read_not_listed hc).symm
  · rw [if_neg hi, if_neg, if_pos (by omega)]
    rintro ⟨c, hc, e⟩
    have := (Memory.mem_cellsFrom hc).2.1
    omega

theorem Memory.mem_writePrefix {m : Memory w} {xs : List (BitVec w)} {c : Nat × BitVec w}
    (h : c ∈ Memory.writePrefix m xs) : (c.1 < xs.length ∧ c.2 ∈ xs) ∨ c ∈ m := by
  rcases List.mem_append.mp h with h | h
  · obtain ⟨-, h2, -, h4⟩ := Memory.mem_cellsFrom h
    exact .inl ⟨by omega, h4⟩
  · exact .inr (List.mem_filter.mp h).1

/-- Writing a prefix keeps the canonical form. -/
theorem Memory.writePrefix_wf {m : Memory w} (xs : List (BitVec w)) (hm : m.wf) : (Memory.writePrefix m xs).wf := by
  have hc := Memory.cellsFrom_wf 0 xs
  refine ⟨List.pairwise_append.mpr ⟨hc.1, hm.1.filter _, fun c h d hd => ?_⟩, fun c h => ?_⟩
  · have h1 := (Memory.mem_cellsFrom h).2.1
    have h2 := (List.mem_filter.mp hd).2
    simp only [decide_eq_true_eq] at h2
    omega
  · rcases List.mem_append.mp h with h | h
    · exact hc.2 c h
    · exact hm.2 c (List.mem_filter.mp h).1

@[simp] theorem Memory.length_readPrefix (m : Memory w) (n : Nat) : (Memory.readPrefix m n).length = n := by
  simp [Memory.readPrefix]

theorem Memory.getD_readPrefix (m : Memory w) (n i : Nat) :
    (Memory.readPrefix m n).getD i 0#w = if i < n then Memory.read m i else 0#w := by
  by_cases h : i < n <;> simp [Memory.readPrefix, h, List.getD_eq_getElem?_getD]

theorem Memory.mem_readPrefix {m : Memory w} {n : Nat} {x : BitVec w} (h : x ∈ Memory.readPrefix m n) :
    ∃ i, i < n ∧ x = Memory.read m i := by
  obtain ⟨i, hi, rfl⟩ := List.mem_map.mp h
  exact ⟨i, List.mem_range.mp hi, rfl⟩

/-- Reading back as many elements as were written gives them. -/
theorem Memory.readPrefix_writePrefix (m : Memory w) (xs : List (BitVec w)) :
    Memory.readPrefix (Memory.writePrefix m xs) xs.length = xs := by
  refine List.ext_getElem (by simp) fun i h1 h2 => ?_
  have h : i < xs.length := h2
  simp [Memory.readPrefix, Memory.read_writePrefix, h]

/-- Two canonical memories that read alike everywhere are equal. -/
theorem Memory.ext_of_wf {m n : Memory w} (hm : m.wf) (hn : n.wf) (h : ∀ i, Memory.read m i = Memory.read n i) :
    m = n := by
  induction m generalizing n with
  | nil =>
    cases n with
    | nil => rfl
    | cons d n =>
      have := h d.1
      rw [Memory.read_nil, Memory.read_cons, if_pos rfl] at this
      exact absurd this.symm (hn.2 d (by simp))
  | cons c m ih =>
    obtain ⟨a, u⟩ := c
    have hu : u ≠ 0#w := hm.2 (a, u) (by simp)
    cases n with
    | nil =>
      have := h a
      rw [Memory.read_nil, Memory.read_cons, if_pos rfl] at this
      exact absurd this hu
    | cons d n =>
      obtain ⟨b, v⟩ := d
      have hv : v ≠ 0#w := hn.2 (b, v) (by simp)
      have hml := Memory.wf_head_lt hm
      have hnl := Memory.wf_head_lt hn
      have hab : a = b := by
        rcases Nat.lt_trichotomy a b with hlt | heq | hgt
        · have := h a
          rw [Memory.read_cons, if_pos rfl, Memory.read_of_lt _ _ fun c hc => ?_] at this
          · exact absurd this hu
          · rcases List.mem_cons.mp hc with rfl | hc
            · exact hlt
            · have := hnl c hc; simp only at this; omega
        · exact heq
        · have := h b
          rw [Memory.read_cons (i := b) b, if_pos rfl, Memory.read_of_lt _ _ fun c hc => ?_] at this
          · exact absurd this.symm hv
          · rcases List.mem_cons.mp hc with rfl | hc
            · exact hgt
            · have := hml c hc; simp only at this; omega
      subst hab
      have huv : u = v := by
        have := h a
        rwa [Memory.read_cons, Memory.read_cons, if_pos rfl, if_pos rfl] at this
      subst huv
      rw [ih (Memory.wf_tail hm) (Memory.wf_tail hn) fun i => ?_]
      by_cases hi : a = i
      · subst hi
        rw [Memory.read_of_lt m a hml, Memory.read_of_lt n a hnl]
      · have := h i
        rwa [Memory.read_cons, Memory.read_cons, if_neg hi, if_neg hi] at this

end Sys2Proof.Machine
end

