-- ==== Sys2Proof/Laws/State.lean ====
section
/-! SUPPORT. For each shared update of the state, one lemma per field, true by definition, so that no proof unfolds a
record update. -/

namespace Sys2Proof.Machine

/-! ### `State.raise` -/

@[simp] theorem raise_cmd (s : State) (f : CmdFault) : (s.raise f).cmd = s.cmd := rfl
@[simp] theorem raise_errf (s : State) (f : CmdFault) : (s.raise f).errf = true := rfl
@[simp] theorem raise_ksv (s : State) (f : CmdFault) : (s.raise f).ksv = s.ksv := rfl
@[simp] theorem raise_objv (s : State) (f : CmdFault) : (s.raise f).objv = s.objv := rfl
@[simp] theorem raise_nr (s : State) (f : CmdFault) : (s.raise f).nr = s.nr := rfl
@[simp] theorem raise_err (s : State) (f : CmdFault) : (s.raise f).err = faultCode f := rfl
@[simp] theorem raise_binlen (s : State) (f : CmdFault) : (s.raise f).binlen = s.binlen := rfl
@[simp] theorem raise_boutlen (s : State) (f : CmdFault) : (s.raise f).boutlen = s.boutlen := rfl
@[simp] theorem raise_tinlen (s : State) (f : CmdFault) : (s.raise f).tinlen = s.tinlen := rfl
@[simp] theorem raise_toutlen (s : State) (f : CmdFault) : (s.raise f).toutlen = s.toutlen := rfl
@[simp] theorem raise_h (s : State) (f : CmdFault) : (s.raise f).h = s.h := rfl
@[simp] theorem raise_key (s : State) (f : CmdFault) : (s.raise f).key = s.key := rfl
@[simp] theorem raise_ks (s : State) (f : CmdFault) : (s.raise f).ks = s.ks := rfl
@[simp] theorem raise_blk (s : State) (f : CmdFault) : (s.raise f).blk = s.blk := rfl
@[simp] theorem raise_ctrblk (s : State) (f : CmdFault) : (s.raise f).ctrblk = s.ctrblk := rfl
@[simp] theorem raise_bin (s : State) (f : CmdFault) : (s.raise f).bin = s.bin := rfl
@[simp] theorem raise_bout (s : State) (f : CmdFault) : (s.raise f).bout = s.bout := rfl
@[simp] theorem raise_tin (s : State) (f : CmdFault) : (s.raise f).tin = s.tin := rfl
@[simp] theorem raise_tout (s : State) (f : CmdFault) : (s.raise f).tout = s.tout := rfl
@[simp] theorem raise_pks (s : State) (f : CmdFault) : (s.raise f).pks = s.pks := rfl
@[simp] theorem raise_pw (s : State) (f : CmdFault) : (s.raise f).pw = s.pw := rfl
@[simp] theorem raise_pwlen (s : State) (f : CmdFault) : (s.raise f).pwlen = s.pwlen := rfl
@[simp] theorem raise_digest (s : State) (f : CmdFault) : (s.raise f).digest = s.digest := rfl
@[simp] theorem raise_params (s : State) (f : CmdFault) : (s.raise f).params = s.params := rfl
@[simp] theorem raise_events (s : State) (f : CmdFault) : (s.raise f).events = s.events := rfl
@[simp] theorem raise_response (s : State) (f : CmdFault) : (s.raise f).response = s.response := rfl
@[simp] theorem raise_timeSamples (s : State) (f : CmdFault) : (s.raise f).timeSamples = s.timeSamples := rfl
@[simp] theorem raise_samplesTaken (s : State) (f : CmdFault) : (s.raise f).samplesTaken = s.samplesTaken := rfl

/-! ### `State.complete` -/

@[simp] theorem complete_cmd (s : State) : s.complete.cmd = s.cmd := rfl
@[simp] theorem complete_errf (s : State) : s.complete.errf = s.errf := rfl
@[simp] theorem complete_ksv (s : State) : s.complete.ksv = s.ksv := rfl
@[simp] theorem complete_objv (s : State) : s.complete.objv = s.objv := rfl
@[simp] theorem complete_nr (s : State) : s.complete.nr = s.nr := rfl
@[simp] theorem complete_err (s : State) : s.complete.err = 0x00#8 := rfl
@[simp] theorem complete_binlen (s : State) : s.complete.binlen = s.binlen := rfl
@[simp] theorem complete_boutlen (s : State) : s.complete.boutlen = s.boutlen := rfl
@[simp] theorem complete_tinlen (s : State) : s.complete.tinlen = s.tinlen := rfl
@[simp] theorem complete_toutlen (s : State) : s.complete.toutlen = s.toutlen := rfl
@[simp] theorem complete_h (s : State) : s.complete.h = s.h := rfl
@[simp] theorem complete_key (s : State) : s.complete.key = s.key := rfl
@[simp] theorem complete_ks (s : State) : s.complete.ks = s.ks := rfl
@[simp] theorem complete_blk (s : State) : s.complete.blk = s.blk := rfl
@[simp] theorem complete_ctrblk (s : State) : s.complete.ctrblk = s.ctrblk := rfl
@[simp] theorem complete_bin (s : State) : s.complete.bin = s.bin := rfl
@[simp] theorem complete_bout (s : State) : s.complete.bout = s.bout := rfl
@[simp] theorem complete_tin (s : State) : s.complete.tin = s.tin := rfl
@[simp] theorem complete_tout (s : State) : s.complete.tout = s.tout := rfl
@[simp] theorem complete_pks (s : State) : s.complete.pks = s.pks := rfl
@[simp] theorem complete_pw (s : State) : s.complete.pw = s.pw := rfl
@[simp] theorem complete_pwlen (s : State) : s.complete.pwlen = s.pwlen := rfl
@[simp] theorem complete_digest (s : State) : s.complete.digest = s.digest := rfl
@[simp] theorem complete_params (s : State) : s.complete.params = s.params := rfl
@[simp] theorem complete_events (s : State) : s.complete.events = s.events := rfl
@[simp] theorem complete_response (s : State) : s.complete.response = s.response := rfl
@[simp] theorem complete_timeSamples (s : State) : s.complete.timeSamples = s.timeSamples := rfl
@[simp] theorem complete_samplesTaken (s : State) : s.complete.samplesTaken = s.samplesTaken := rfl

/-! ### `State.clearFault` -/

@[simp] theorem clearFault_cmd (s : State) : s.clearFault.cmd = s.cmd := rfl
@[simp] theorem clearFault_errf (s : State) : s.clearFault.errf = false := rfl
@[simp] theorem clearFault_ksv (s : State) : s.clearFault.ksv = s.ksv := rfl
@[simp] theorem clearFault_objv (s : State) : s.clearFault.objv = s.objv := rfl
@[simp] theorem clearFault_nr (s : State) : s.clearFault.nr = s.nr := rfl
@[simp] theorem clearFault_err (s : State) : s.clearFault.err = s.err := rfl
@[simp] theorem clearFault_binlen (s : State) : s.clearFault.binlen = s.binlen := rfl
@[simp] theorem clearFault_boutlen (s : State) : s.clearFault.boutlen = s.boutlen := rfl
@[simp] theorem clearFault_tinlen (s : State) : s.clearFault.tinlen = s.tinlen := rfl
@[simp] theorem clearFault_toutlen (s : State) : s.clearFault.toutlen = s.toutlen := rfl
@[simp] theorem clearFault_h (s : State) : s.clearFault.h = s.h := rfl
@[simp] theorem clearFault_key (s : State) : s.clearFault.key = s.key := rfl
@[simp] theorem clearFault_ks (s : State) : s.clearFault.ks = s.ks := rfl
@[simp] theorem clearFault_blk (s : State) : s.clearFault.blk = s.blk := rfl
@[simp] theorem clearFault_ctrblk (s : State) : s.clearFault.ctrblk = s.ctrblk := rfl
@[simp] theorem clearFault_bin (s : State) : s.clearFault.bin = s.bin := rfl
@[simp] theorem clearFault_bout (s : State) : s.clearFault.bout = s.bout := rfl
@[simp] theorem clearFault_tin (s : State) : s.clearFault.tin = s.tin := rfl
@[simp] theorem clearFault_tout (s : State) : s.clearFault.tout = s.tout := rfl
@[simp] theorem clearFault_pks (s : State) : s.clearFault.pks = s.pks := rfl
@[simp] theorem clearFault_pw (s : State) : s.clearFault.pw = s.pw := rfl
@[simp] theorem clearFault_pwlen (s : State) : s.clearFault.pwlen = s.pwlen := rfl
@[simp] theorem clearFault_digest (s : State) : s.clearFault.digest = s.digest := rfl
@[simp] theorem clearFault_params (s : State) : s.clearFault.params = s.params := rfl
@[simp] theorem clearFault_events (s : State) : s.clearFault.events = s.events := rfl
@[simp] theorem clearFault_response (s : State) : s.clearFault.response = s.response := rfl
@[simp] theorem clearFault_timeSamples (s : State) : s.clearFault.timeSamples = s.timeSamples := rfl
@[simp] theorem clearFault_samplesTaken (s : State) : s.clearFault.samplesTaken = s.samplesTaken := rfl

/-! ### `State.emitBytes` -/

@[simp] theorem emitBytes_cmd (s : State) (out : List Byte) : (s.emitBytes out).cmd = s.cmd := rfl
@[simp] theorem emitBytes_errf (s : State) (out : List Byte) : (s.emitBytes out).errf = s.errf := rfl
@[simp] theorem emitBytes_ksv (s : State) (out : List Byte) : (s.emitBytes out).ksv = s.ksv := rfl
@[simp] theorem emitBytes_objv (s : State) (out : List Byte) : (s.emitBytes out).objv = s.objv := rfl
@[simp] theorem emitBytes_nr (s : State) (out : List Byte) : (s.emitBytes out).nr = s.nr := rfl
@[simp] theorem emitBytes_err (s : State) (out : List Byte) : (s.emitBytes out).err = s.err := rfl
@[simp] theorem emitBytes_binlen (s : State) (out : List Byte) : (s.emitBytes out).binlen = s.binlen := rfl
@[simp] theorem emitBytes_boutlen (s : State) (out : List Byte) : (s.emitBytes out).boutlen = BitVec.ofNat 32 out.length := rfl
@[simp] theorem emitBytes_tinlen (s : State) (out : List Byte) : (s.emitBytes out).tinlen = s.tinlen := rfl
@[simp] theorem emitBytes_toutlen (s : State) (out : List Byte) : (s.emitBytes out).toutlen = s.toutlen := rfl
@[simp] theorem emitBytes_h (s : State) (out : List Byte) : (s.emitBytes out).h = s.h := rfl
@[simp] theorem emitBytes_key (s : State) (out : List Byte) : (s.emitBytes out).key = s.key := rfl
@[simp] theorem emitBytes_ks (s : State) (out : List Byte) : (s.emitBytes out).ks = s.ks := rfl
@[simp] theorem emitBytes_blk (s : State) (out : List Byte) : (s.emitBytes out).blk = s.blk := rfl
@[simp] theorem emitBytes_ctrblk (s : State) (out : List Byte) : (s.emitBytes out).ctrblk = s.ctrblk := rfl
@[simp] theorem emitBytes_bin (s : State) (out : List Byte) : (s.emitBytes out).bin = s.bin := rfl
@[simp] theorem emitBytes_bout (s : State) (out : List Byte) : (s.emitBytes out).bout = s.bout.writePrefix out := rfl
@[simp] theorem emitBytes_tin (s : State) (out : List Byte) : (s.emitBytes out).tin = s.tin := rfl
@[simp] theorem emitBytes_tout (s : State) (out : List Byte) : (s.emitBytes out).tout = s.tout := rfl
@[simp] theorem emitBytes_pks (s : State) (out : List Byte) : (s.emitBytes out).pks = s.pks := rfl
@[simp] theorem emitBytes_pw (s : State) (out : List Byte) : (s.emitBytes out).pw = s.pw := rfl
@[simp] theorem emitBytes_pwlen (s : State) (out : List Byte) : (s.emitBytes out).pwlen = s.pwlen := rfl
@[simp] theorem emitBytes_digest (s : State) (out : List Byte) : (s.emitBytes out).digest = s.digest := rfl
@[simp] theorem emitBytes_params (s : State) (out : List Byte) : (s.emitBytes out).params = s.params := rfl
@[simp] theorem emitBytes_events (s : State) (out : List Byte) : (s.emitBytes out).events = s.events := rfl
@[simp] theorem emitBytes_response (s : State) (out : List Byte) : (s.emitBytes out).response = s.response := rfl
@[simp] theorem emitBytes_timeSamples (s : State) (out : List Byte) : (s.emitBytes out).timeSamples = s.timeSamples := rfl
@[simp] theorem emitBytes_samplesTaken (s : State) (out : List Byte) : (s.emitBytes out).samplesTaken = s.samplesTaken := rfl

/-! ### `State.emitText` -/

@[simp] theorem emitText_cmd (s : State) (out : List Word) : (s.emitText out).cmd = s.cmd := rfl
@[simp] theorem emitText_errf (s : State) (out : List Word) : (s.emitText out).errf = s.errf := rfl
@[simp] theorem emitText_ksv (s : State) (out : List Word) : (s.emitText out).ksv = s.ksv := rfl
@[simp] theorem emitText_objv (s : State) (out : List Word) : (s.emitText out).objv = s.objv := rfl
@[simp] theorem emitText_nr (s : State) (out : List Word) : (s.emitText out).nr = s.nr := rfl
@[simp] theorem emitText_err (s : State) (out : List Word) : (s.emitText out).err = s.err := rfl
@[simp] theorem emitText_binlen (s : State) (out : List Word) : (s.emitText out).binlen = s.binlen := rfl
@[simp] theorem emitText_boutlen (s : State) (out : List Word) : (s.emitText out).boutlen = s.boutlen := rfl
@[simp] theorem emitText_tinlen (s : State) (out : List Word) : (s.emitText out).tinlen = s.tinlen := rfl
@[simp] theorem emitText_toutlen (s : State) (out : List Word) : (s.emitText out).toutlen = BitVec.ofNat 32 out.length := rfl
@[simp] theorem emitText_h (s : State) (out : List Word) : (s.emitText out).h = s.h := rfl
@[simp] theorem emitText_key (s : State) (out : List Word) : (s.emitText out).key = s.key := rfl
@[simp] theorem emitText_ks (s : State) (out : List Word) : (s.emitText out).ks = s.ks := rfl
@[simp] theorem emitText_blk (s : State) (out : List Word) : (s.emitText out).blk = s.blk := rfl
@[simp] theorem emitText_ctrblk (s : State) (out : List Word) : (s.emitText out).ctrblk = s.ctrblk := rfl
@[simp] theorem emitText_bin (s : State) (out : List Word) : (s.emitText out).bin = s.bin := rfl
@[simp] theorem emitText_bout (s : State) (out : List Word) : (s.emitText out).bout = s.bout := rfl
@[simp] theorem emitText_tin (s : State) (out : List Word) : (s.emitText out).tin = s.tin := rfl
@[simp] theorem emitText_tout (s : State) (out : List Word) : (s.emitText out).tout = s.tout.writePrefix out := rfl
@[simp] theorem emitText_pks (s : State) (out : List Word) : (s.emitText out).pks = s.pks := rfl
@[simp] theorem emitText_pw (s : State) (out : List Word) : (s.emitText out).pw = s.pw := rfl
@[simp] theorem emitText_pwlen (s : State) (out : List Word) : (s.emitText out).pwlen = s.pwlen := rfl
@[simp] theorem emitText_digest (s : State) (out : List Word) : (s.emitText out).digest = s.digest := rfl
@[simp] theorem emitText_params (s : State) (out : List Word) : (s.emitText out).params = s.params := rfl
@[simp] theorem emitText_events (s : State) (out : List Word) : (s.emitText out).events = s.events := rfl
@[simp] theorem emitText_response (s : State) (out : List Word) : (s.emitText out).response = s.response := rfl
@[simp] theorem emitText_timeSamples (s : State) (out : List Word) : (s.emitText out).timeSamples = s.timeSamples := rfl
@[simp] theorem emitText_samplesTaken (s : State) (out : List Word) : (s.emitText out).samplesTaken = s.samplesTaken := rfl

/-! ### `State.setSchedule` -/

@[simp] theorem setSchedule_cmd (s : State) (n : Nat) : (s.setSchedule n).cmd = s.cmd := rfl
@[simp] theorem setSchedule_errf (s : State) (n : Nat) : (s.setSchedule n).errf = s.errf := rfl
@[simp] theorem setSchedule_ksv (s : State) (n : Nat) : (s.setSchedule n).ksv = true := rfl
@[simp] theorem setSchedule_objv (s : State) (n : Nat) : (s.setSchedule n).objv = s.objv := rfl
@[simp] theorem setSchedule_nr (s : State) (n : Nat) : (s.setSchedule n).nr = BitVec.ofNat 4 n := rfl
@[simp] theorem setSchedule_err (s : State) (n : Nat) : (s.setSchedule n).err = s.err := rfl
@[simp] theorem setSchedule_binlen (s : State) (n : Nat) : (s.setSchedule n).binlen = s.binlen := rfl
@[simp] theorem setSchedule_boutlen (s : State) (n : Nat) : (s.setSchedule n).boutlen = s.boutlen := rfl
@[simp] theorem setSchedule_tinlen (s : State) (n : Nat) : (s.setSchedule n).tinlen = s.tinlen := rfl
@[simp] theorem setSchedule_toutlen (s : State) (n : Nat) : (s.setSchedule n).toutlen = s.toutlen := rfl
@[simp] theorem setSchedule_h (s : State) (n : Nat) : (s.setSchedule n).h = s.h := rfl
@[simp] theorem setSchedule_key (s : State) (n : Nat) : (s.setSchedule n).key = s.key := rfl
@[simp] theorem setSchedule_ks (s : State) (n : Nat) : (s.setSchedule n).ks = s.ks := rfl
@[simp] theorem setSchedule_blk (s : State) (n : Nat) : (s.setSchedule n).blk = s.blk := rfl
@[simp] theorem setSchedule_ctrblk (s : State) (n : Nat) : (s.setSchedule n).ctrblk = s.ctrblk := rfl
@[simp] theorem setSchedule_bin (s : State) (n : Nat) : (s.setSchedule n).bin = s.bin := rfl
@[simp] theorem setSchedule_bout (s : State) (n : Nat) : (s.setSchedule n).bout = s.bout := rfl
@[simp] theorem setSchedule_tin (s : State) (n : Nat) : (s.setSchedule n).tin = s.tin := rfl
@[simp] theorem setSchedule_tout (s : State) (n : Nat) : (s.setSchedule n).tout = s.tout := rfl
@[simp] theorem setSchedule_pks (s : State) (n : Nat) : (s.setSchedule n).pks = s.pks := rfl
@[simp] theorem setSchedule_pw (s : State) (n : Nat) : (s.setSchedule n).pw = s.pw := rfl
@[simp] theorem setSchedule_pwlen (s : State) (n : Nat) : (s.setSchedule n).pwlen = s.pwlen := rfl
@[simp] theorem setSchedule_digest (s : State) (n : Nat) : (s.setSchedule n).digest = s.digest := rfl
@[simp] theorem setSchedule_params (s : State) (n : Nat) : (s.setSchedule n).params = s.params := rfl
@[simp] theorem setSchedule_events (s : State) (n : Nat) : (s.setSchedule n).events = s.events := rfl
@[simp] theorem setSchedule_response (s : State) (n : Nat) : (s.setSchedule n).response = s.response := rfl
@[simp] theorem setSchedule_timeSamples (s : State) (n : Nat) : (s.setSchedule n).timeSamples = s.timeSamples := rfl
@[simp] theorem setSchedule_samplesTaken (s : State) (n : Nat) : (s.setSchedule n).samplesTaken = s.samplesTaken := rfl

/-! ### `State.endSchedule` -/

@[simp] theorem endSchedule_cmd (s : State) : s.endSchedule.cmd = s.cmd := rfl
@[simp] theorem endSchedule_errf (s : State) : s.endSchedule.errf = s.errf := rfl
@[simp] theorem endSchedule_ksv (s : State) : s.endSchedule.ksv = false := rfl
@[simp] theorem endSchedule_objv (s : State) : s.endSchedule.objv = s.objv := rfl
@[simp] theorem endSchedule_nr (s : State) : s.endSchedule.nr = 0#4 := rfl
@[simp] theorem endSchedule_err (s : State) : s.endSchedule.err = s.err := rfl
@[simp] theorem endSchedule_binlen (s : State) : s.endSchedule.binlen = s.binlen := rfl
@[simp] theorem endSchedule_boutlen (s : State) : s.endSchedule.boutlen = s.boutlen := rfl
@[simp] theorem endSchedule_tinlen (s : State) : s.endSchedule.tinlen = s.tinlen := rfl
@[simp] theorem endSchedule_toutlen (s : State) : s.endSchedule.toutlen = s.toutlen := rfl
@[simp] theorem endSchedule_h (s : State) : s.endSchedule.h = s.h := rfl
@[simp] theorem endSchedule_key (s : State) : s.endSchedule.key = s.key := rfl
@[simp] theorem endSchedule_ks (s : State) : s.endSchedule.ks = s.ks := rfl
@[simp] theorem endSchedule_blk (s : State) : s.endSchedule.blk = s.blk := rfl
@[simp] theorem endSchedule_ctrblk (s : State) : s.endSchedule.ctrblk = s.ctrblk := rfl
@[simp] theorem endSchedule_bin (s : State) : s.endSchedule.bin = s.bin := rfl
@[simp] theorem endSchedule_bout (s : State) : s.endSchedule.bout = s.bout := rfl
@[simp] theorem endSchedule_tin (s : State) : s.endSchedule.tin = s.tin := rfl
@[simp] theorem endSchedule_tout (s : State) : s.endSchedule.tout = s.tout := rfl
@[simp] theorem endSchedule_pks (s : State) : s.endSchedule.pks = s.pks := rfl
@[simp] theorem endSchedule_pw (s : State) : s.endSchedule.pw = s.pw := rfl
@[simp] theorem endSchedule_pwlen (s : State) : s.endSchedule.pwlen = s.pwlen := rfl
@[simp] theorem endSchedule_digest (s : State) : s.endSchedule.digest = s.digest := rfl
@[simp] theorem endSchedule_params (s : State) : s.endSchedule.params = s.params := rfl
@[simp] theorem endSchedule_events (s : State) : s.endSchedule.events = s.events := rfl
@[simp] theorem endSchedule_response (s : State) : s.endSchedule.response = s.response := rfl
@[simp] theorem endSchedule_timeSamples (s : State) : s.endSchedule.timeSamples = s.timeSamples := rfl
@[simp] theorem endSchedule_samplesTaken (s : State) : s.endSchedule.samplesTaken = s.samplesTaken := rfl

/-! ### `State.takeSample` -/

@[simp] theorem takeSample_cmd (s : State) : s.takeSample.cmd = s.cmd := rfl
@[simp] theorem takeSample_errf (s : State) : s.takeSample.errf = s.errf := rfl
@[simp] theorem takeSample_ksv (s : State) : s.takeSample.ksv = s.ksv := rfl
@[simp] theorem takeSample_objv (s : State) : s.takeSample.objv = s.objv := rfl
@[simp] theorem takeSample_nr (s : State) : s.takeSample.nr = s.nr := rfl
@[simp] theorem takeSample_err (s : State) : s.takeSample.err = s.err := rfl
@[simp] theorem takeSample_binlen (s : State) : s.takeSample.binlen = s.binlen := rfl
@[simp] theorem takeSample_boutlen (s : State) : s.takeSample.boutlen = s.boutlen := rfl
@[simp] theorem takeSample_tinlen (s : State) : s.takeSample.tinlen = s.tinlen := rfl
@[simp] theorem takeSample_toutlen (s : State) : s.takeSample.toutlen = s.toutlen := rfl
@[simp] theorem takeSample_h (s : State) : s.takeSample.h = s.h := rfl
@[simp] theorem takeSample_key (s : State) : s.takeSample.key = s.key := rfl
@[simp] theorem takeSample_ks (s : State) : s.takeSample.ks = s.ks := rfl
@[simp] theorem takeSample_blk (s : State) : s.takeSample.blk = s.blk := rfl
@[simp] theorem takeSample_ctrblk (s : State) : s.takeSample.ctrblk = s.ctrblk := rfl
@[simp] theorem takeSample_bin (s : State) : s.takeSample.bin = s.bin := rfl
@[simp] theorem takeSample_bout (s : State) : s.takeSample.bout = s.bout := rfl
@[simp] theorem takeSample_tin (s : State) : s.takeSample.tin = s.tin := rfl
@[simp] theorem takeSample_tout (s : State) : s.takeSample.tout = s.tout := rfl
@[simp] theorem takeSample_pks (s : State) : s.takeSample.pks = s.pks := rfl
@[simp] theorem takeSample_pw (s : State) : s.takeSample.pw = s.pw := rfl
@[simp] theorem takeSample_pwlen (s : State) : s.takeSample.pwlen = s.pwlen := rfl
@[simp] theorem takeSample_digest (s : State) : s.takeSample.digest = s.digest := rfl
@[simp] theorem takeSample_params (s : State) : s.takeSample.params = s.params := rfl
@[simp] theorem takeSample_events (s : State) : s.takeSample.events = s.events := rfl
@[simp] theorem takeSample_response (s : State) : s.takeSample.response = s.response := rfl
@[simp] theorem takeSample_timeSamples (s : State) : s.takeSample.timeSamples = s.timeSamples.tail := rfl
@[simp] theorem takeSample_samplesTaken (s : State) : s.takeSample.samplesTaken = s.samplesTaken + 1 := rfl

/-! ### `State.driveTime` -/

@[simp] theorem driveTime_cmd (s : State) (t : TimeSample) : (s.driveTime t).cmd = s.cmd := rfl
@[simp] theorem driveTime_errf (s : State) (t : TimeSample) : (s.driveTime t).errf = s.errf := rfl
@[simp] theorem driveTime_ksv (s : State) (t : TimeSample) : (s.driveTime t).ksv = s.ksv := rfl
@[simp] theorem driveTime_objv (s : State) (t : TimeSample) : (s.driveTime t).objv = s.objv := rfl
@[simp] theorem driveTime_nr (s : State) (t : TimeSample) : (s.driveTime t).nr = s.nr := rfl
@[simp] theorem driveTime_err (s : State) (t : TimeSample) : (s.driveTime t).err = s.err := rfl
@[simp] theorem driveTime_binlen (s : State) (t : TimeSample) : (s.driveTime t).binlen = s.binlen := rfl
@[simp] theorem driveTime_boutlen (s : State) (t : TimeSample) : (s.driveTime t).boutlen = s.boutlen := rfl
@[simp] theorem driveTime_tinlen (s : State) (t : TimeSample) : (s.driveTime t).tinlen = s.tinlen := rfl
@[simp] theorem driveTime_toutlen (s : State) (t : TimeSample) : (s.driveTime t).toutlen = s.toutlen := rfl
@[simp] theorem driveTime_h (s : State) (t : TimeSample) : (s.driveTime t).h = s.h := rfl
@[simp] theorem driveTime_key (s : State) (t : TimeSample) : (s.driveTime t).key = s.key := rfl
@[simp] theorem driveTime_ks (s : State) (t : TimeSample) : (s.driveTime t).ks = s.ks := rfl
@[simp] theorem driveTime_blk (s : State) (t : TimeSample) : (s.driveTime t).blk = s.blk := rfl
@[simp] theorem driveTime_ctrblk (s : State) (t : TimeSample) : (s.driveTime t).ctrblk = s.ctrblk := rfl
@[simp] theorem driveTime_bin (s : State) (t : TimeSample) : (s.driveTime t).bin = s.bin := rfl
@[simp] theorem driveTime_bout (s : State) (t : TimeSample) : (s.driveTime t).bout = s.bout := rfl
@[simp] theorem driveTime_tin (s : State) (t : TimeSample) : (s.driveTime t).tin = s.tin := rfl
@[simp] theorem driveTime_tout (s : State) (t : TimeSample) : (s.driveTime t).tout = s.tout := rfl
@[simp] theorem driveTime_pks (s : State) (t : TimeSample) : (s.driveTime t).pks = s.pks := rfl
@[simp] theorem driveTime_pw (s : State) (t : TimeSample) : (s.driveTime t).pw = s.pw := rfl
@[simp] theorem driveTime_pwlen (s : State) (t : TimeSample) : (s.driveTime t).pwlen = s.pwlen := rfl
@[simp] theorem driveTime_digest (s : State) (t : TimeSample) : (s.driveTime t).digest = s.digest := rfl
@[simp] theorem driveTime_params (s : State) (t : TimeSample) : (s.driveTime t).params = s.params := rfl
@[simp] theorem driveTime_events (s : State) (t : TimeSample) : (s.driveTime t).events = s.events := rfl
@[simp] theorem driveTime_response (s : State) (t : TimeSample) : (s.driveTime t).response = s.response := rfl
@[simp] theorem driveTime_timeSamples (s : State) (t : TimeSample) :
    (s.driveTime t).timeSamples = t :: s.timeSamples.tail := rfl
@[simp] theorem driveTime_samplesTaken (s : State) (t : TimeSample) :
    (s.driveTime t).samplesTaken = s.samplesTaken := rfl
@[simp] theorem driveTime_timeSample (s : State) (t : TimeSample) : (s.driveTime t).timeSample = t := rfl

/-! ### `State.respond` -/

@[simp] theorem respond_cmd (s : State) (r : BusResponse) : (s.respond r).cmd = s.cmd := rfl
@[simp] theorem respond_errf (s : State) (r : BusResponse) : (s.respond r).errf = s.errf := rfl
@[simp] theorem respond_ksv (s : State) (r : BusResponse) : (s.respond r).ksv = s.ksv := rfl
@[simp] theorem respond_objv (s : State) (r : BusResponse) : (s.respond r).objv = s.objv := rfl
@[simp] theorem respond_nr (s : State) (r : BusResponse) : (s.respond r).nr = s.nr := rfl
@[simp] theorem respond_err (s : State) (r : BusResponse) : (s.respond r).err = s.err := rfl
@[simp] theorem respond_binlen (s : State) (r : BusResponse) : (s.respond r).binlen = s.binlen := rfl
@[simp] theorem respond_boutlen (s : State) (r : BusResponse) : (s.respond r).boutlen = s.boutlen := rfl
@[simp] theorem respond_tinlen (s : State) (r : BusResponse) : (s.respond r).tinlen = s.tinlen := rfl
@[simp] theorem respond_toutlen (s : State) (r : BusResponse) : (s.respond r).toutlen = s.toutlen := rfl
@[simp] theorem respond_h (s : State) (r : BusResponse) : (s.respond r).h = s.h := rfl
@[simp] theorem respond_key (s : State) (r : BusResponse) : (s.respond r).key = s.key := rfl
@[simp] theorem respond_ks (s : State) (r : BusResponse) : (s.respond r).ks = s.ks := rfl
@[simp] theorem respond_blk (s : State) (r : BusResponse) : (s.respond r).blk = s.blk := rfl
@[simp] theorem respond_ctrblk (s : State) (r : BusResponse) : (s.respond r).ctrblk = s.ctrblk := rfl
@[simp] theorem respond_bin (s : State) (r : BusResponse) : (s.respond r).bin = s.bin := rfl
@[simp] theorem respond_bout (s : State) (r : BusResponse) : (s.respond r).bout = s.bout := rfl
@[simp] theorem respond_tin (s : State) (r : BusResponse) : (s.respond r).tin = s.tin := rfl
@[simp] theorem respond_tout (s : State) (r : BusResponse) : (s.respond r).tout = s.tout := rfl
@[simp] theorem respond_pks (s : State) (r : BusResponse) : (s.respond r).pks = s.pks := rfl
@[simp] theorem respond_pw (s : State) (r : BusResponse) : (s.respond r).pw = s.pw := rfl
@[simp] theorem respond_pwlen (s : State) (r : BusResponse) : (s.respond r).pwlen = s.pwlen := rfl
@[simp] theorem respond_digest (s : State) (r : BusResponse) : (s.respond r).digest = s.digest := rfl
@[simp] theorem respond_params (s : State) (r : BusResponse) : (s.respond r).params = s.params := rfl
@[simp] theorem respond_events (s : State) (r : BusResponse) : (s.respond r).events = s.events := rfl
@[simp] theorem respond_response (s : State) (r : BusResponse) : (s.respond r).response = r := rfl
@[simp] theorem respond_timeSamples (s : State) (r : BusResponse) : (s.respond r).timeSamples = s.timeSamples := rfl
@[simp] theorem respond_samplesTaken (s : State) (r : BusResponse) : (s.respond r).samplesTaken = s.samplesTaken := rfl

/-! ### `State.beginCommand` -/

@[simp] theorem beginCommand_cmd (s : State) (c : Word) : (s.beginCommand c).cmd = c := rfl
@[simp] theorem beginCommand_errf (s : State) (c : Word) : (s.beginCommand c).errf = s.errf := rfl
@[simp] theorem beginCommand_ksv (s : State) (c : Word) : (s.beginCommand c).ksv = s.ksv := rfl
@[simp] theorem beginCommand_objv (s : State) (c : Word) : (s.beginCommand c).objv = s.objv := rfl
@[simp] theorem beginCommand_nr (s : State) (c : Word) : (s.beginCommand c).nr = s.nr := rfl
@[simp] theorem beginCommand_err (s : State) (c : Word) : (s.beginCommand c).err = s.err := rfl
@[simp] theorem beginCommand_binlen (s : State) (c : Word) : (s.beginCommand c).binlen = s.binlen := rfl
@[simp] theorem beginCommand_boutlen (s : State) (c : Word) : (s.beginCommand c).boutlen = s.boutlen := rfl
@[simp] theorem beginCommand_tinlen (s : State) (c : Word) : (s.beginCommand c).tinlen = s.tinlen := rfl
@[simp] theorem beginCommand_toutlen (s : State) (c : Word) : (s.beginCommand c).toutlen = s.toutlen := rfl
@[simp] theorem beginCommand_h (s : State) (c : Word) : (s.beginCommand c).h = s.h := rfl
@[simp] theorem beginCommand_key (s : State) (c : Word) : (s.beginCommand c).key = s.key := rfl
@[simp] theorem beginCommand_ks (s : State) (c : Word) : (s.beginCommand c).ks = s.ks := rfl
@[simp] theorem beginCommand_blk (s : State) (c : Word) : (s.beginCommand c).blk = s.blk := rfl
@[simp] theorem beginCommand_ctrblk (s : State) (c : Word) : (s.beginCommand c).ctrblk = s.ctrblk := rfl
@[simp] theorem beginCommand_bin (s : State) (c : Word) : (s.beginCommand c).bin = s.bin := rfl
@[simp] theorem beginCommand_bout (s : State) (c : Word) : (s.beginCommand c).bout = s.bout := rfl
@[simp] theorem beginCommand_tin (s : State) (c : Word) : (s.beginCommand c).tin = s.tin := rfl
@[simp] theorem beginCommand_tout (s : State) (c : Word) : (s.beginCommand c).tout = s.tout := rfl
@[simp] theorem beginCommand_pks (s : State) (c : Word) : (s.beginCommand c).pks = s.pks := rfl
@[simp] theorem beginCommand_pw (s : State) (c : Word) : (s.beginCommand c).pw = s.pw := rfl
@[simp] theorem beginCommand_pwlen (s : State) (c : Word) : (s.beginCommand c).pwlen = s.pwlen := rfl
@[simp] theorem beginCommand_digest (s : State) (c : Word) : (s.beginCommand c).digest = s.digest := rfl
@[simp] theorem beginCommand_params (s : State) (c : Word) : (s.beginCommand c).params = s.params := rfl
@[simp] theorem beginCommand_events (s : State) (c : Word) : (s.beginCommand c).events = s.events := rfl
@[simp] theorem beginCommand_response (s : State) (c : Word) : (s.beginCommand c).response = .written := rfl
@[simp] theorem beginCommand_timeSamples (s : State) (c : Word) : (s.beginCommand c).timeSamples = s.timeSamples := rfl
@[simp] theorem beginCommand_samplesTaken (s : State) (c : Word) : (s.beginCommand c).samplesTaken = s.samplesTaken := rfl

/-! ### `State.dropEvent` -/

@[simp] theorem dropEvent_cmd (s : State) : s.dropEvent.cmd = s.cmd := rfl
@[simp] theorem dropEvent_errf (s : State) : s.dropEvent.errf = s.errf := rfl
@[simp] theorem dropEvent_ksv (s : State) : s.dropEvent.ksv = s.ksv := rfl
@[simp] theorem dropEvent_objv (s : State) : s.dropEvent.objv = s.objv := rfl
@[simp] theorem dropEvent_nr (s : State) : s.dropEvent.nr = s.nr := rfl
@[simp] theorem dropEvent_err (s : State) : s.dropEvent.err = s.err := rfl
@[simp] theorem dropEvent_binlen (s : State) : s.dropEvent.binlen = s.binlen := rfl
@[simp] theorem dropEvent_boutlen (s : State) : s.dropEvent.boutlen = s.boutlen := rfl
@[simp] theorem dropEvent_tinlen (s : State) : s.dropEvent.tinlen = s.tinlen := rfl
@[simp] theorem dropEvent_toutlen (s : State) : s.dropEvent.toutlen = s.toutlen := rfl
@[simp] theorem dropEvent_h (s : State) : s.dropEvent.h = s.h := rfl
@[simp] theorem dropEvent_key (s : State) : s.dropEvent.key = s.key := rfl
@[simp] theorem dropEvent_ks (s : State) : s.dropEvent.ks = s.ks := rfl
@[simp] theorem dropEvent_blk (s : State) : s.dropEvent.blk = s.blk := rfl
@[simp] theorem dropEvent_ctrblk (s : State) : s.dropEvent.ctrblk = s.ctrblk := rfl
@[simp] theorem dropEvent_bin (s : State) : s.dropEvent.bin = s.bin := rfl
@[simp] theorem dropEvent_bout (s : State) : s.dropEvent.bout = s.bout := rfl
@[simp] theorem dropEvent_tin (s : State) : s.dropEvent.tin = s.tin := rfl
@[simp] theorem dropEvent_tout (s : State) : s.dropEvent.tout = s.tout := rfl
@[simp] theorem dropEvent_pks (s : State) : s.dropEvent.pks = s.pks := rfl
@[simp] theorem dropEvent_pw (s : State) : s.dropEvent.pw = s.pw := rfl
@[simp] theorem dropEvent_pwlen (s : State) : s.dropEvent.pwlen = s.pwlen := rfl
@[simp] theorem dropEvent_digest (s : State) : s.dropEvent.digest = s.digest := rfl
@[simp] theorem dropEvent_params (s : State) : s.dropEvent.params = s.params := rfl
@[simp] theorem dropEvent_events (s : State) : s.dropEvent.events = s.events.tail := rfl
@[simp] theorem dropEvent_response (s : State) : s.dropEvent.response = s.response := rfl
@[simp] theorem dropEvent_timeSamples (s : State) : s.dropEvent.timeSamples = s.timeSamples := rfl
@[simp] theorem dropEvent_samplesTaken (s : State) : s.dropEvent.samplesTaken = s.samplesTaken := rfl

/-! ### `State.hardReset` -/

@[simp] theorem hardReset_cmd (s : State) : s.hardReset.cmd = State.reset.cmd := rfl
@[simp] theorem hardReset_errf (s : State) : s.hardReset.errf = State.reset.errf := rfl
@[simp] theorem hardReset_ksv (s : State) : s.hardReset.ksv = State.reset.ksv := rfl
@[simp] theorem hardReset_objv (s : State) : s.hardReset.objv = State.reset.objv := rfl
@[simp] theorem hardReset_nr (s : State) : s.hardReset.nr = State.reset.nr := rfl
@[simp] theorem hardReset_err (s : State) : s.hardReset.err = State.reset.err := rfl
@[simp] theorem hardReset_binlen (s : State) : s.hardReset.binlen = State.reset.binlen := rfl
@[simp] theorem hardReset_boutlen (s : State) : s.hardReset.boutlen = State.reset.boutlen := rfl
@[simp] theorem hardReset_tinlen (s : State) : s.hardReset.tinlen = State.reset.tinlen := rfl
@[simp] theorem hardReset_toutlen (s : State) : s.hardReset.toutlen = State.reset.toutlen := rfl
@[simp] theorem hardReset_h (s : State) : s.hardReset.h = State.reset.h := rfl
@[simp] theorem hardReset_key (s : State) : s.hardReset.key = State.reset.key := rfl
@[simp] theorem hardReset_ks (s : State) : s.hardReset.ks = State.reset.ks := rfl
@[simp] theorem hardReset_blk (s : State) : s.hardReset.blk = State.reset.blk := rfl
@[simp] theorem hardReset_ctrblk (s : State) : s.hardReset.ctrblk = State.reset.ctrblk := rfl
@[simp] theorem hardReset_bin (s : State) : s.hardReset.bin = State.reset.bin := rfl
@[simp] theorem hardReset_bout (s : State) : s.hardReset.bout = State.reset.bout := rfl
@[simp] theorem hardReset_tin (s : State) : s.hardReset.tin = State.reset.tin := rfl
@[simp] theorem hardReset_tout (s : State) : s.hardReset.tout = State.reset.tout := rfl
@[simp] theorem hardReset_pks (s : State) : s.hardReset.pks = State.reset.pks := rfl
@[simp] theorem hardReset_pw (s : State) : s.hardReset.pw = State.reset.pw := rfl
@[simp] theorem hardReset_pwlen (s : State) : s.hardReset.pwlen = State.reset.pwlen := rfl
@[simp] theorem hardReset_digest (s : State) : s.hardReset.digest = State.reset.digest := rfl
@[simp] theorem hardReset_params (s : State) : s.hardReset.params = s.params := rfl
@[simp] theorem hardReset_events (s : State) : s.hardReset.events = s.events := rfl
@[simp] theorem hardReset_response (s : State) : s.hardReset.response = s.response := rfl
@[simp] theorem hardReset_timeSamples (s : State) : s.hardReset.timeSamples = s.timeSamples := rfl
@[simp] theorem hardReset_samplesTaken (s : State) : s.hardReset.samplesTaken = s.samplesTaken := rfl

end Sys2Proof.Machine
end

