-- ==== Sys2Proof/Laws/Ops.lean ====
section
/-! SUPPORT. One lemma for each shared operation, saying all it can do: padding, the end of a command, the checks and the
operands of the commands. Later proofs cite these and do not unfold the operations. -/

namespace Sys2Proof.Machine

/-! ### `padTo` -/

theorem toList_padTo {w : Nat} (n : Nat) (xs : List (BitVec w)) :
    (padTo n xs).toList = xs.take n ++ List.replicate (n - xs.length) 0#w := by
  simp [padTo]

/-- Element `i` of a padded sequence: the sequence's own below its length, 0 from there on. -/
theorem getElem_padTo {w : Nat} (n : Nat) (xs : List (BitVec w)) (i : Nat) (h : i < n) :
    (padTo n xs)[i] = xs.getD i 0#w := by
  simp only [padTo, Vector.getElem_mk, List.getElem_toArray, List.getElem_append, List.getElem_take,
    List.length_take, List.getElem_replicate]
  split
  · rename_i hi
    rw [List.getD_eq_getElem _ _ (by omega)]
  · rename_i hi
    rw [List.getD_eq_default _ _ (by omega)]

theorem getD_toList_padTo {w : Nat} (n : Nat) (xs : List (BitVec w)) (i : Nat) :
    (padTo n xs).toList.getD i 0#w = if i < n then xs.getD i 0#w else 0#w := by
  split
  · rename_i h
    rw [List.getD_eq_getElem _ _ (by simpa using h), Vector.getElem_toList, getElem_padTo]
  · rename_i h
    rw [List.getD_eq_default _ _ (by simp; omega)]

/-- Padding a sequence of exactly `n` elements changes nothing. -/
theorem toList_padTo_of_length {w : Nat} {n : Nat} {xs : List (BitVec w)} (h : xs.length = n) :
    (padTo n xs).toList = xs := by
  subst h; simp [toList_padTo]

theorem padTo_toList {w n : Nat} (v : Vector (BitVec w) n) : padTo n v.toList = v := by
  rw [← Vector.toList_inj]; exact toList_padTo_of_length (by simp)

/-! ### The end of a command -/

@[simp] theorem conclude_ok (s t : State) : s.conclude (.ok t) = t.complete := rfl

@[simp] theorem conclude_error (s : State) (f : CmdFault) : s.conclude (.error f) = s.raise f := rfl

/-- A command ends in one of two ways. -/
theorem conclude_cases (s : State) (r : Except CmdFault State) :
    (∃ t, r = .ok t ∧ s.conclude r = t.complete) ∨ (∃ f, r = .error f ∧ s.conclude r = s.raise f) := by
  cases r with
  | ok t => exact .inl ⟨t, rfl, rfl⟩
  | error f => exact .inr ⟨f, rfl, rfl⟩

theorem faultCode_ne_zero (f : CmdFault) : faultCode f ≠ 0#8 := by cases f <;> decide

theorem faultCode_injective (f g : CmdFault) (h : faultCode f = faultCode g) : f = g := by
  revert h; cases f <;> cases g <;> decide

/-! ### Checks -/

theorem guardFits_of_le {n c : Nat} (h : n ≤ c) : guardFits n c = .ok () := by simp [guardFits, h]

theorem guardFits_of_lt {n c : Nat} (h : c < n) : guardFits n c = .error .bufferOverflow := by simp [guardFits, h]

theorem requireSchedule_of_valid {s : State} (h : s.ksv = true) : s.requireSchedule = .ok () := by
  simp [State.requireSchedule, h]

theorem requireSchedule_of_none {s : State} (h : s.ksv = false) : s.requireSchedule = .error .noSchedule := by
  simp [State.requireSchedule, h]

theorem requireObject_of_valid {s : State} (h : s.objv = true) : s.requireObject = .ok () := by
  simp [State.requireObject, h]

theorem requireObject_of_none {s : State} (h : s.objv = false) : s.requireObject = .error .noObject := by
  simp [State.requireObject, h]

theorem requireNonce_of_le {raw : List Byte} (h : 8 ≤ raw.length) : requireNonce raw = .ok () := by
  simp [requireNonce, h]

theorem requireNonce_of_lt {raw : List Byte} (h : raw.length < 8) : requireNonce raw = .error .decodeFailure := by
  simp [requireNonce, h]

theorem requireMd5Length_of_lt {s : State} (h : s.binlen.toNat < 2 ^ 29) : s.requireMd5Length = .ok () :=
  if_neg (Nat.not_le.mpr h)

theorem requireMd5Length_of_le {s : State} (h : 2 ^ 29 ≤ s.binlen.toNat) :
    s.requireMd5Length = .error .invalidInput :=
  if_pos h

/-! ### Operands -/

theorem binInput_of_le {s : State} (h : s.binlen.toNat ≤ s.params.bufBytes) :
    s.binInput = .ok (s.bin.readPrefix s.binlen.toNat) := by
  simp [State.binInput, guardFits_of_le h, bind, Except.bind, pure, Except.pure]

theorem binInput_of_lt {s : State} (h : s.params.bufBytes < s.binlen.toNat) :
    s.binInput = .error .bufferOverflow := by
  simp [State.binInput, guardFits_of_lt h, bind, Except.bind]

theorem textInput_of_le {s : State} (h : s.tinlen.toNat ≤ s.params.bufCps) :
    s.textInput = .ok (s.tin.readPrefix s.tinlen.toNat) := by
  simp [State.textInput, guardFits_of_le h, bind, Except.bind, pure, Except.pure]

theorem textInput_of_lt {s : State} (h : s.params.bufCps < s.tinlen.toNat) :
    s.textInput = .error .bufferOverflow := by
  simp [State.textInput, guardFits_of_lt h, bind, Except.bind]

/-! ### Outputs -/

/-- Bytes put out: the new ones below their number, what stood there from it on (10_state.md R36). -/
theorem emitBytes_read (s : State) (out : List Byte) (i : Nat) :
    (s.emitBytes out).bout.read i = if i < out.length then out.getD i 0#8 else s.bout.read i :=
  Memory.read_writePrefix s.bout out i

/-- Code points put out: the new ones below their number, what stood there from it on (10_state.md R37). -/
theorem emitText_read (s : State) (out : List Word) (i : Nat) :
    (s.emitText out).tout.read i = if i < out.length then out.getD i 0#32 else s.tout.read i :=
  Memory.read_writePrefix s.tout out i

end Sys2Proof.Machine
end

