-- ==== Sys2Proof/Laws/Bodies.lean ====
section
/-! SUPPORT. The pseudocode of every command that can fault, as one equation for each of its ends, in the order of its
tests (spec 60_exceptions.md R281). -/

namespace Sys2Proof.Machine

variable {s : State}

/-! ### Commands that need a schedule -/

theorem cipherBody_none (h : s.ksv = false) : cipherBody s = .error .noSchedule := by
  simp [cipherBody, requireSchedule_of_none h, bind, Except.bind]

theorem cipherBody_ok (h : s.ksv = true) : cipherBody s = .ok { s with blk := cipher s.blk s.ks s.nr.toNat } := by
  simp [cipherBody, requireSchedule_of_valid h, bind, Except.bind, pure, Except.pure]

theorem invCipherBody_none (h : s.ksv = false) : invCipherBody s = .error .noSchedule := by
  simp [invCipherBody, requireSchedule_of_none h, bind, Except.bind]

theorem invCipherBody_ok (h : s.ksv = true) :
    invCipherBody s = .ok { s with blk := invCipher s.blk s.ks s.nr.toNat } := by
  simp [invCipherBody, requireSchedule_of_valid h, bind, Except.bind, pure, Except.pure]

theorem ctrXformBody_none (h : s.ksv = false) : ctrXformBody s = .error .noSchedule := by
  simp [ctrXformBody, requireSchedule_of_none h, bind, Except.bind]

theorem ctrXformBody_long (h : s.ksv = true) (hl : s.params.bufBytes < s.binlen.toNat) :
    ctrXformBody s = .error .bufferOverflow := by
  simp [ctrXformBody, requireSchedule_of_valid h, binInput_of_lt hl, bind, Except.bind]

theorem ctrXformBody_ok (h : s.ksv = true) (hl : s.binlen.toNat ≤ s.params.bufBytes) :
    ctrXformBody s =
      .ok ({ s with ctrblk := (ctrXform s.ctrblk (s.bin.readPrefix s.binlen.toNat) s.ks s.nr.toNat).2 }.emitBytes
        (ctrXform s.ctrblk (s.bin.readPrefix s.binlen.toNat) s.ks s.nr.toNat).1) := by
  simp [ctrXformBody, requireSchedule_of_valid h, binInput_of_le hl, bind, Except.bind, pure, Except.pure]

/-! ### `MD5.DIGEST` -/

theorem md5DigestBody_invalid (h : 2 ^ 29 ≤ s.binlen.toNat) : md5DigestBody s = .error .invalidInput := by
  simp [md5DigestBody, requireMd5Length_of_le h, bind, Except.bind]

theorem md5DigestBody_long (h : s.binlen.toNat < 2 ^ 29) (hl : s.params.bufBytes < s.binlen.toNat) :
    md5DigestBody s = .error .bufferOverflow := by
  simp [md5DigestBody, requireMd5Length_of_lt h, binInput_of_lt hl, bind, Except.bind]

theorem md5DigestBody_ok (h : s.binlen.toNat < 2 ^ 29) (hl : s.binlen.toNat ≤ s.params.bufBytes) :
    md5DigestBody s =
      .ok ({ s with h := md5Hash (s.bin.readPrefix s.binlen.toNat) }.emitBytes
        (md5Sum (s.bin.readPrefix s.binlen.toNat))) := by
  simp [md5DigestBody, requireMd5Length_of_lt h, binInput_of_le hl, bind, Except.bind, pure, Except.pure]

/-! ### Codecs -/

theorem utf8EncBody_long (hl : s.params.bufCps < s.tinlen.toNat) : utf8EncBody s = .error .bufferOverflow := by
  simp [utf8EncBody, textInput_of_lt hl, bind, Except.bind]

theorem utf8EncBody_invalid (hl : s.tinlen.toNat ≤ s.params.bufCps) {f : CmdFault}
    (he : utf8Encode (s.tin.readPrefix s.tinlen.toNat) = .error f) : utf8EncBody s = .error f := by
  simp [utf8EncBody, textInput_of_le hl, he, bind, Except.bind]

theorem utf8EncBody_full (hl : s.tinlen.toNat ≤ s.params.bufCps) {out : List Byte}
    (he : utf8Encode (s.tin.readPrefix s.tinlen.toNat) = .ok out) (ho : s.params.bufBytes < out.length) :
    utf8EncBody s = .error .bufferOverflow := by
  simp [utf8EncBody, textInput_of_le hl, he, guardFits_of_lt ho, bind, Except.bind]

theorem utf8EncBody_ok (hl : s.tinlen.toNat ≤ s.params.bufCps) {out : List Byte}
    (he : utf8Encode (s.tin.readPrefix s.tinlen.toNat) = .ok out) (ho : out.length ≤ s.params.bufBytes) :
    utf8EncBody s = .ok (s.emitBytes out) := by
  simp [utf8EncBody, textInput_of_le hl, he, guardFits_of_le ho, bind, Except.bind, pure, Except.pure]

theorem utf8DecBody_long (hl : s.params.bufBytes < s.binlen.toNat) : utf8DecBody s = .error .bufferOverflow := by
  simp [utf8DecBody, binInput_of_lt hl, bind, Except.bind]

theorem utf8DecBody_invalid (hl : s.binlen.toNat ≤ s.params.bufBytes) {f : CmdFault}
    (he : utf8Decode (s.bin.readPrefix s.binlen.toNat) = .error f) : utf8DecBody s = .error f := by
  simp [utf8DecBody, binInput_of_le hl, he, bind, Except.bind]

theorem utf8DecBody_full (hl : s.binlen.toNat ≤ s.params.bufBytes) {out : List Word}
    (he : utf8Decode (s.bin.readPrefix s.binlen.toNat) = .ok out) (ho : s.params.bufCps < out.length) :
    utf8DecBody s = .error .bufferOverflow := by
  simp [utf8DecBody, binInput_of_le hl, he, guardFits_of_lt ho, bind, Except.bind]

theorem utf8DecBody_ok (hl : s.binlen.toNat ≤ s.params.bufBytes) {out : List Word}
    (he : utf8Decode (s.bin.readPrefix s.binlen.toNat) = .ok out) (ho : out.length ≤ s.params.bufCps) :
    utf8DecBody s = .ok (s.emitText out) := by
  simp [utf8DecBody, binInput_of_le hl, he, guardFits_of_le ho, bind, Except.bind, pure, Except.pure]

theorem b64EncBody_long (hl : s.params.bufBytes < s.binlen.toNat) : b64EncBody s = .error .bufferOverflow := by
  simp [b64EncBody, binInput_of_lt hl, bind, Except.bind]

theorem b64EncBody_full (hl : s.binlen.toNat ≤ s.params.bufBytes)
    (ho : s.params.bufCps < 4 * ((s.binlen.toNat + 2) / 3)) : b64EncBody s = .error .bufferOverflow := by
  simp [b64EncBody, binInput_of_le hl, guardFits_of_lt ho, bind, Except.bind]

theorem b64EncBody_ok (hl : s.binlen.toNat ≤ s.params.bufBytes)
    (ho : 4 * ((s.binlen.toNat + 2) / 3) ≤ s.params.bufCps) :
    b64EncBody s = .ok (s.emitText (b64Encode (s.bin.readPrefix s.binlen.toNat))) := by
  simp [b64EncBody, binInput_of_le hl, guardFits_of_le ho, bind, Except.bind, pure, Except.pure]

theorem b64DecBody_long (hl : s.params.bufCps < s.tinlen.toNat) : b64DecBody s = .error .bufferOverflow := by
  simp [b64DecBody, textInput_of_lt hl, bind, Except.bind]

theorem b64DecBody_invalid (hl : s.tinlen.toNat ≤ s.params.bufCps) {f : CmdFault}
    (he : b64Decode (s.tin.readPrefix s.tinlen.toNat) = .error f) : b64DecBody s = .error f := by
  simp [b64DecBody, textInput_of_le hl, he, bind, Except.bind]

theorem b64DecBody_full (hl : s.tinlen.toNat ≤ s.params.bufCps) {out : List Byte}
    (he : b64Decode (s.tin.readPrefix s.tinlen.toNat) = .ok out) (ho : s.params.bufBytes < out.length) :
    b64DecBody s = .error .bufferOverflow := by
  simp [b64DecBody, textInput_of_le hl, he, guardFits_of_lt ho, bind, Except.bind]

theorem b64DecBody_ok (hl : s.tinlen.toNat ≤ s.params.bufCps) {out : List Byte}
    (he : b64Decode (s.tin.readPrefix s.tinlen.toNat) = .ok out) (ho : out.length ≤ s.params.bufBytes) :
    b64DecBody s = .ok (s.emitBytes out) := by
  simp [b64DecBody, textInput_of_le hl, he, guardFits_of_le ho, bind, Except.bind, pure, Except.pure]

theorem hexEncBody_long (hl : s.params.bufBytes < s.binlen.toNat) : hexEncBody s = .error .bufferOverflow := by
  simp [hexEncBody, binInput_of_lt hl, bind, Except.bind]

theorem hexEncBody_full (hl : s.binlen.toNat ≤ s.params.bufBytes) (ho : s.params.bufCps < 2 * s.binlen.toNat) :
    hexEncBody s = .error .bufferOverflow := by
  simp [hexEncBody, binInput_of_le hl, guardFits_of_lt ho, bind, Except.bind]

theorem hexEncBody_ok (hl : s.binlen.toNat ≤ s.params.bufBytes) (ho : 2 * s.binlen.toNat ≤ s.params.bufCps) :
    hexEncBody s = .ok (s.emitText (hexEncode (s.bin.readPrefix s.binlen.toNat))) := by
  simp [hexEncBody, binInput_of_le hl, guardFits_of_le ho, bind, Except.bind, pure, Except.pure]

/-! ### The façade -/

theorem constructBody_long (hl : s.params.bufCps < s.tinlen.toNat) : constructBody s = .error .bufferOverflow := by
  simp [constructBody, textInput_of_lt hl, bind, Except.bind]

theorem constructBody_invalid (hl : s.tinlen.toNat ≤ s.params.bufCps) {f : CmdFault}
    (he : utf8Encode (s.tin.readPrefix s.tinlen.toNat) = .error f) : constructBody s = .error f := by
  simp [constructBody, textInput_of_le hl, he, bind, Except.bind]

theorem constructBody_ok (hl : s.tinlen.toNat ≤ s.params.bufCps) {pb : List Byte}
    (he : utf8Encode (s.tin.readPrefix s.tinlen.toNat) = .ok pb) :
    constructBody s = .ok { s with
      pw := s.pw.writePrefix (s.tin.readPrefix s.tinlen.toNat), pwlen := s.tinlen.toNat,
      digest := padTo 32 (createPasswordDigest s.params.sha1 pb), pks := createKeySchedule pb, objv := true } := by
  simp [constructBody, textInput_of_le hl, he, bind, Except.bind, pure, Except.pure]

theorem encryptBody_none (t : TimeSample) (h : s.objv = false) : encryptBody t s = .error .noObject := by
  simp [encryptBody, requireObject_of_none h, bind, Except.bind]

theorem encryptBody_long (t : TimeSample) (h : s.objv = true) (hl : s.params.bufCps < s.tinlen.toNat) :
    encryptBody t s = .error .bufferOverflow := by
  simp [encryptBody, requireObject_of_valid h, textInput_of_lt hl, bind, Except.bind]

theorem encryptBody_invalid (t : TimeSample) (h : s.objv = true) (hl : s.tinlen.toNat ≤ s.params.bufCps) {f : CmdFault}
    (he : utf8Encode (s.tin.readPrefix s.tinlen.toNat) = .error f) : encryptBody t s = .error f := by
  simp [encryptBody, requireObject_of_valid h, textInput_of_le hl, he, bind, Except.bind]

theorem encryptBody_full (t : TimeSample) (h : s.objv = true) (hl : s.tinlen.toNat ≤ s.params.bufCps) {pt : List Byte}
    (he : utf8Encode (s.tin.readPrefix s.tinlen.toNat) = .ok pt)
    (ho : s.params.bufCps < 4 * ((8 + pt.length + 2) / 3)) : encryptBody t s = .error .bufferOverflow := by
  simp [encryptBody, requireObject_of_valid h, textInput_of_le hl, he, guardFits_of_lt ho, bind, Except.bind]

theorem encryptBody_ok (t : TimeSample) (h : s.objv = true) (hl : s.tinlen.toNat ≤ s.params.bufCps) {pt : List Byte}
    (he : utf8Encode (s.tin.readPrefix s.tinlen.toNat) = .ok pt)
    (ho : 4 * ((8 + pt.length + 2) / 3) ≤ s.params.bufCps) :
    encryptBody t s = .ok (s.emitText (b64Encode (sealBytes s.pks (makeNonce t) pt))) := by
  simp [encryptBody, requireObject_of_valid h, textInput_of_le hl, he, guardFits_of_le ho, bind, Except.bind, pure,
    Except.pure]

theorem decryptBody_none (h : s.objv = false) : decryptBody s = .error .noObject := by
  simp [decryptBody, requireObject_of_none h, bind, Except.bind]

theorem decryptBody_long (h : s.objv = true) (hl : s.params.bufCps < s.tinlen.toNat) :
    decryptBody s = .error .bufferOverflow := by
  simp [decryptBody, requireObject_of_valid h, textInput_of_lt hl, bind, Except.bind]

theorem decryptBody_base64 (h : s.objv = true) (hl : s.tinlen.toNat ≤ s.params.bufCps) {f : CmdFault}
    (he : b64Decode (s.tin.readPrefix s.tinlen.toNat) = .error f) : decryptBody s = .error f := by
  simp [decryptBody, requireObject_of_valid h, textInput_of_le hl, he, bind, Except.bind]

theorem decryptBody_short (h : s.objv = true) (hl : s.tinlen.toNat ≤ s.params.bufCps) {raw : List Byte}
    (he : b64Decode (s.tin.readPrefix s.tinlen.toNat) = .ok raw) (hr : raw.length < 8) :
    decryptBody s = .error .decodeFailure := by
  simp [decryptBody, requireObject_of_valid h, textInput_of_le hl, he, requireNonce_of_lt hr, bind, Except.bind]

theorem decryptBody_utf8 (h : s.objv = true) (hl : s.tinlen.toNat ≤ s.params.bufCps) {raw : List Byte}
    (he : b64Decode (s.tin.readPrefix s.tinlen.toNat) = .ok raw) (hr : 8 ≤ raw.length) {f : CmdFault}
    (hu : utf8Decode (ctrXform (nonceBlock raw) (raw.drop 8) s.pks facadeRounds).1 = .error f) :
    decryptBody s = .error f := by
  simp [decryptBody, requireObject_of_valid h, textInput_of_le hl, he, requireNonce_of_le hr, hu, bind, Except.bind]

theorem decryptBody_ok (h : s.objv = true) (hl : s.tinlen.toNat ≤ s.params.bufCps) {raw : List Byte}
    (he : b64Decode (s.tin.readPrefix s.tinlen.toNat) = .ok raw) (hr : 8 ≤ raw.length) {out : List Word}
    (hu : utf8Decode (ctrXform (nonceBlock raw) (raw.drop 8) s.pks facadeRounds).1 = .ok out) :
    decryptBody s = .ok (s.emitText out) := by
  simp [decryptBody, requireObject_of_valid h, textInput_of_le hl, he, requireNonce_of_le hr, hu, bind, Except.bind,
    pure, Except.pure]

theorem getDigestBody_none (h : s.objv = false) : getDigestBody s = .error .noObject := by
  simp [getDigestBody, requireObject_of_none h, bind, Except.bind]

theorem getDigestBody_ok (h : s.objv = true) :
    getDigestBody s = .ok (s.emitText (s.digest.toList.map (fun b => b.setWidth 32))) := by
  simp [getDigestBody, requireObject_of_valid h, bind, Except.bind, pure, Except.pure]

theorem getPasswordBody_none (h : s.objv = false) : getPasswordBody s = .error .noObject := by
  simp [getPasswordBody, requireObject_of_none h, bind, Except.bind]

theorem getPasswordBody_ok (h : s.objv = true) : getPasswordBody s = .ok (s.emitText s.storedPassword) := by
  simp [getPasswordBody, requireObject_of_valid h, bind, Except.bind, pure, Except.pure]

end Sys2Proof.Machine
end

