-- ==== Sys2Proof/Laws/Bus.lean ====
section
/-! SUPPORT. The bus port: where an offset leads, what an access does, and what one step does with one event. -/

namespace Sys2Proof.Machine

/-! ### Locating an offset -/

/-- The row found holds the offset, and the index is the offset's own (20_memory.md R62). -/
theorem locate_some {κ : Type} {rows : List (MapRow κ)} {stride a : Nat} {r : MapRow κ} {i : Nat}
    (h : locate rows stride a = some (r, i)) :
    r ∈ rows ∧ r.base ≤ a ∧ (a - r.base) % stride = 0 ∧ i = (a - r.base) / stride ∧ i < r.count := by
  simp only [locate, Option.map_eq_some_iff] at h
  obtain ⟨r', hf, he⟩ := h
  obtain ⟨rfl, rfl⟩ := Prod.mk.injEq .. ▸ he
  have hp := List.find?_some hf
  simp only [rowHolds, Bool.and_eq_true, decide_eq_true_eq] at hp
  exact ⟨List.mem_of_find?_eq_some hf, hp.1.1, hp.1.2, rfl, hp.2⟩

/-- Nothing is found where no row holds the offset. -/
theorem locate_none {κ : Type} {rows : List (MapRow κ)} {stride a : Nat} :
    locate rows stride a = none ↔ ∀ r ∈ rows, rowHolds stride a r = false := by
  simp [locate]

/-! ### One step -/

theorem step_idle {s : State} (h : s.events = []) : step s = .next s := by
  simp [step, nextStep, h]

/-- A step serves the first event, taken off the list. -/
theorem step_event {s : State} {e : HostEvent} {rest : List HostEvent} (h : s.events = e :: rest) :
    step s = serve { s with events := rest } e := by
  simp [step, nextStep, h, State.dropEvent]

@[simp] theorem serve_readByte (s : State) (a : Offset) : serve s (.readByte a) = .next (s.hostReadByte a) := rfl
@[simp] theorem serve_readWord (s : State) (a : Offset) : serve s (.readWord a) = .next (s.hostReadWord a) := rfl
@[simp] theorem serve_writeByte (s : State) (a : Offset) (v : Byte) :
    serve s (.writeByte a v) = .next (s.hostWriteByte a v) := rfl
@[simp] theorem serve_hwReset (s : State) : serve s .hwReset = .next (s.hardReset.respond .idle) := rfl

@[simp] theorem serve_driveTime (s : State) (t : TimeSample) : serve s (.driveTime t) = .next (s.driveTime t) := rfl

theorem serve_writeCmd (s : State) (c : Word) : serve s (.writeWord cmdOffset c) = runCommand s c := by
  simp [serve]

theorem serve_writeWord {a : Offset} (h : a ≠ cmdOffset) (s : State) (v : Word) :
    serve s (.writeWord a v) = .next (s.hostWriteWord a v) := by
  simp [serve, h]

theorem runCommand_some {c : Word} {i : Instr} (h : decode c = some i) (s : State) :
    runCommand s c = exec i (s.beginCommand c) := by
  simp [runCommand, h]

theorem runCommand_none {c : Word} (h : decode c = none) (s : State) :
    runCommand s c = .next ((s.beginCommand c).raise .illegalCommand) := by
  simp [runCommand, h]

/-! ### Accesses -/

theorem hostReadByte_some {s : State} {a : Offset} {r : MapRow ByteArr} {i : Nat}
    (h : locateByte s.params a = some (r, i)) : s.hostReadByte a = s.respond (.byte (s.byteAt r.array i)) := by
  simp [State.hostReadByte, h]

theorem hostReadByte_none {s : State} {a : Offset} (h : locateByte s.params a = none) :
    s.hostReadByte a = s.respond .hostErr := by
  simp [State.hostReadByte, h]

theorem hostReadWord_some {s : State} {a : Offset} {r : MapRow WordArr} {i : Nat}
    (h : locateWord s.params a = some (r, i)) : s.hostReadWord a = s.respond (.word (s.wordAt r.array i)) := by
  simp [State.hostReadWord, h]

theorem hostReadWord_none {s : State} {a : Offset} (h : locateWord s.params a = none) :
    s.hostReadWord a = s.respond .hostErr := by
  simp [State.hostReadWord, h]

theorem hostWriteByte_some {s : State} {a : Offset} {r : MapRow ByteArr} {i : Nat}
    (h : locateByte s.params a = some (r, i)) (hw : r.writable = true) (v : Byte) :
    s.hostWriteByte a v = (s.putByte r.array i v).respond .written := by
  simp [State.hostWriteByte, h, hw]

theorem hostWriteByte_readOnly {s : State} {a : Offset} {r : MapRow ByteArr} {i : Nat}
    (h : locateByte s.params a = some (r, i)) (hw : r.writable = false) (v : Byte) :
    s.hostWriteByte a v = s.respond .hostErr := by
  simp [State.hostWriteByte, h, hw]

theorem hostWriteByte_none {s : State} {a : Offset} (h : locateByte s.params a = none) (v : Byte) :
    s.hostWriteByte a v = s.respond .hostErr := by
  simp [State.hostWriteByte, h]

theorem hostWriteWord_some {s : State} {a : Offset} {r : MapRow WordArr} {i : Nat}
    (h : locateWord s.params a = some (r, i)) (hw : r.writable = true) (v : Word) :
    s.hostWriteWord a v = (s.putWord r.array i v).respond .written := by
  simp [State.hostWriteWord, h, hw]

theorem hostWriteWord_readOnly {s : State} {a : Offset} {r : MapRow WordArr} {i : Nat}
    (h : locateWord s.params a = some (r, i)) (hw : r.writable = false) (v : Word) :
    s.hostWriteWord a v = s.respond .hostErr := by
  simp [State.hostWriteWord, h, hw]

theorem hostWriteWord_none {s : State} {a : Offset} (h : locateWord s.params a = none) (v : Word) :
    s.hostWriteWord a v = s.respond .hostErr := by
  simp [State.hostWriteWord, h]

end Sys2Proof.Machine
end

