-- ==== Sys2Proof/Laws/Codecs.lean ====
section
/-! SUPPORT. How the codecs fail: each with one kind of fault (spec 45_codecs.md R201, R204, R213). -/

namespace Sys2Proof.Machine

theorem utf8EncOne_error {c : Word} {f : CmdFault} (h : utf8EncOne c = .error f) : f = .invalidCharacterCode := by
  unfold utf8EncOne at h
  split at h
  · cases h
  · split at h
    · cases h
    · split at h
      · cases h
      · split at h
        · cases h
        · cases h; rfl

theorem utf8Encode_nil : utf8Encode [] = .ok [] := rfl

theorem utf8Encode_cons_ok {c : Word} {t : List Word} {b bs : List Byte} (hc : utf8EncOne c = .ok b)
    (ht : utf8Encode t = .ok bs) : utf8Encode (c :: t) = .ok (b ++ bs) := by
  simp [utf8Encode, hc, ht, bind, Except.bind, pure, Except.pure]

theorem utf8Encode_cons_error {c : Word} {t : List Word} {f : CmdFault} (hc : utf8EncOne c = .error f) :
    utf8Encode (c :: t) = .error f := by
  simp [utf8Encode, hc, bind, Except.bind]

theorem utf8Encode_cons_tail {c : Word} {t : List Word} {b : List Byte} {f : CmdFault} (hc : utf8EncOne c = .ok b)
    (ht : utf8Encode t = .error f) : utf8Encode (c :: t) = .error f := by
  simp [utf8Encode, hc, ht, bind, Except.bind]

/-- A text that does not encode fails with `InvalidCharacterCode`. -/
theorem utf8Encode_error {t : List Word} {f : CmdFault} (h : utf8Encode t = .error f) : f = .invalidCharacterCode := by
  induction t with
  | nil => cases h
  | cons c t ih =>
    cases hc : utf8EncOne c with
    | error g =>
      rw [utf8Encode_cons_error hc] at h
      injection h with h
      exact h ▸ utf8EncOne_error hc
    | ok b =>
      cases ht : utf8Encode t with
      | error g =>
        rw [utf8Encode_cons_tail hc ht] at h
        injection h with h
        exact ih (h ▸ ht)
      | ok bs => rw [utf8Encode_cons_ok hc ht] at h; cases h

theorem utf8DecLoop_error {n : Nat} {b : List Byte} {f : CmdFault} (h : utf8DecLoop n b = .error f) :
    f = .invalidUtf8Sequence := by
  induction n generalizing b with
  | zero => cases b <;> simp [utf8DecLoop] at h; exact h.symm
  | succ n ih =>
    cases b with
    | nil => simp [utf8DecLoop] at h
    | cons x b =>
      simp only [utf8DecLoop] at h
      split at h
      · cases h; rfl
      · rename_i c rest _
        cases hr : utf8DecLoop n rest with
        | error g =>
          simp only [hr, bind, Except.bind] at h
          injection h with h
          exact ih (h ▸ hr)
        | ok t => simp [hr, bind, Except.bind, pure, Except.pure] at h

/-- Bytes that do not decode fail with `InvalidUtf8Sequence`. -/
theorem utf8Decode_error {b : List Byte} {f : CmdFault} (h : utf8Decode b = .error f) : f = .invalidUtf8Sequence :=
  utf8DecLoop_error h

theorem b64Digit_error {q : Word} {f : CmdFault} (h : b64Digit q = .error f) : f = .decodeFailure := by
  unfold b64Digit at h
  split at h
  · cases h
  · cases h; rfl

/-- What a bind of two failing computations fails with. -/
theorem bind_error {α β : Type} {x : Except CmdFault α} {g : α → Except CmdFault β} {f : CmdFault}
    (h : (x >>= g) = .error f) : x = .error f ∨ ∃ a, x = .ok a ∧ g a = .error f := by
  cases x with
  | error e => exact .inl (by simpa [bind, Except.bind] using h)
  | ok a => exact .inr ⟨a, rfl, h⟩

theorem b64DataDigit_error {d : Bool} {q : Word} {f : CmdFault} (h : b64DataDigit d q = .error f) :
    f = .decodeFailure := by
  unfold b64DataDigit at h
  split at h
  · exact b64Digit_error h
  · cases h

theorem b64Keep_error {pad : Nat} {v : BitVec 24} {f : CmdFault} (h : b64Keep pad v = .error f) :
    f = .decodeFailure := by
  unfold b64Keep at h
  split at h
  · cases h; rfl
  · split at h
    · cases h; rfl
    · cases h

theorem b64DecGroup_error {q0 q1 q2 q3 : Word} {f : CmdFault} (h : b64DecGroup q0 q1 q2 q3 = .error f) :
    f = .decodeFailure := by
  simp only [b64DecGroup] at h
  rcases bind_error h with h | ⟨v0, -, h⟩
  · exact b64Digit_error h
  rcases bind_error h with h | ⟨v1, -, h⟩
  · exact b64Digit_error h
  rcases bind_error h with h | ⟨v2, -, h⟩
  · exact b64DataDigit_error h
  rcases bind_error h with h | ⟨v3, -, h⟩
  · exact b64DataDigit_error h
  exact b64Keep_error h

theorem b64DecGroups_error {t : List Word} {f : CmdFault} (h : b64DecGroups t = .error f) : f = .decodeFailure := by
  induction t using b64DecGroups.induct with
  | case1 => cases h
  | case2 q0 q1 q2 q3 t _ =>
    simp only [b64DecGroups] at h
    split at h
    · cases h; rfl
    · contradiction
  | case3 q0 q1 q2 q3 t _ ih =>
    simp only [b64DecGroups] at h
    split at h
    · cases h; rfl
    rcases bind_error h with h | ⟨b, -, h⟩
    · exact b64DecGroup_error h
    rcases bind_error h with h | ⟨bs, -, h⟩
    · exact ih h
    cases h
  | case4 | case5 | case6 => simp [b64DecGroups] at h; exact h.symm

/-- A text that does not decode fails with `DecodeFailure`. -/
theorem b64Decode_error {t : List Word} {f : CmdFault} (h : b64Decode t = .error f) : f = .decodeFailure := by
  unfold b64Decode at h
  split at h
  · cases h; rfl
  · exact b64DecGroups_error h

end Sys2Proof.Machine
end

