-- ==== Sys2Proof/Laws/Exec.lean ====
section
/-! SUPPORT. What `exec` answers, as one equation for all commands: the end of the command's pseudocode. -/

namespace Sys2Proof.Machine

/-- The pseudocode of a command, from the state in which it runs (`startOf`). -/
def bodyOf : Instr → State → Except CmdFault State
  | .nop, s => .ok s
  | .aesKeyexp ksz, s => if kszLegal ksz = true then keyexpBody ksz s else .error .illegalCommand
  | .aesCipher, s => cipherBody s
  | .aesInvcipher, s => invCipherBody s
  | .md5Init, s => .ok { s with h := md5Iv }
  | .md5Block, s => .ok { s with h := md5Block s.h s.blockInput }
  | .md5Digest, s => md5DigestBody s
  | .ctrInc, s => .ok { s with ctrblk := ctrInc s.ctrblk }
  | .ctrXform, s => ctrXformBody s
  | .utf8Enc, s => utf8EncBody s
  | .utf8Dec, s => utf8DecBody s
  | .b64Enc, s => b64EncBody s
  | .b64Dec, s => b64DecBody s
  | .hexEnc, s => hexEncBody s
  | .pwConstruct, s => constructBody s
  | .pwEncrypt, s => encryptBody s.timeSample s.takeSample
  | .pwDecrypt, s => decryptBody s
  | .pwGetdigest, s => getDigestBody s
  | .pwGetpassword, s => getPasswordBody s
  | .clrerr, s => .ok s.clearFault
  | .sreset, s => .ok { s.hardReset with cmd := s.cmd }

/-- The state in which a command runs: the time ports have been sampled by `PW.ENCRYPT` (10_state.md R43). -/
def startOf : Instr → State → State
  | .pwEncrypt, s => s.takeSample
  | .nop, s | .aesKeyexp _, s | .aesCipher, s | .aesInvcipher, s | .md5Init, s | .md5Block, s | .md5Digest, s
  | .ctrInc, s | .ctrXform, s | .utf8Enc, s | .utf8Dec, s | .b64Enc, s | .b64Dec, s | .hexEnc, s
  | .pwConstruct, s | .pwDecrypt, s | .pwGetdigest, s | .pwGetpassword, s | .clrerr, s | .sreset, s => s

/-- Every command ends with its pseudocode. -/
theorem exec_eq (i : Instr) (s : State) : exec i s = .next ((startOf i s).conclude (bodyOf i s)) := by
  cases i <;> rfl

/-- A command answers with one state. -/
theorem exec_next_iff (i : Instr) (s t : State) :
    exec i s = .next t ↔ t = (startOf i s).conclude (bodyOf i s) := by
  rw [exec_eq]
  constructor
  · intro h; injection h with h; exact h.symm
  · intro h; rw [h]

end Sys2Proof.Machine
end

