-- ==== Sys2Proof/Laws/Cases.lean ====
section
/-! SUPPORT. For the pseudocode of each command that can fault, every way it can end, as one lemma to take apart (spec
60_exceptions.md R281, R282). -/

namespace Sys2Proof.Machine

theorem cipherBody_cases (s : State) :
    (s.ksv = false ∧ cipherBody s = .error .noSchedule) ∨
    (s.ksv = true ∧ cipherBody s = .ok { s with blk := cipher s.blk s.ks s.nr.toNat }) := by
  rcases Bool.eq_false_or_eq_true s.ksv with h | h
  rotate_left
  · exact .inl ⟨h, cipherBody_none h⟩
  · exact .inr ⟨h, cipherBody_ok h⟩

theorem invCipherBody_cases (s : State) :
    (s.ksv = false ∧ invCipherBody s = .error .noSchedule) ∨
    (s.ksv = true ∧ invCipherBody s = .ok { s with blk := invCipher s.blk s.ks s.nr.toNat }) := by
  rcases Bool.eq_false_or_eq_true s.ksv with h | h
  rotate_left
  · exact .inl ⟨h, invCipherBody_none h⟩
  · exact .inr ⟨h, invCipherBody_ok h⟩

theorem ctrXformBody_cases (s : State) :
    (s.ksv = false ∧ ctrXformBody s = .error .noSchedule) ∨
    (s.ksv = true ∧ s.params.bufBytes < s.binlen.toNat ∧ ctrXformBody s = .error .bufferOverflow) ∨
    (s.ksv = true ∧ s.binlen.toNat ≤ s.params.bufBytes ∧
      ctrXformBody s =
        .ok ({ s with ctrblk := (ctrXform s.ctrblk (s.bin.readPrefix s.binlen.toNat) s.ks s.nr.toNat).2 }.emitBytes
          (ctrXform s.ctrblk (s.bin.readPrefix s.binlen.toNat) s.ks s.nr.toNat).1)) := by
  rcases Bool.eq_false_or_eq_true s.ksv with h | h
  rotate_left
  · exact .inl ⟨h, ctrXformBody_none h⟩
  · rcases Nat.lt_or_ge s.params.bufBytes s.binlen.toNat with hl | hl
    · exact .inr (.inl ⟨h, hl, ctrXformBody_long h hl⟩)
    · exact .inr (.inr ⟨h, hl, ctrXformBody_ok h hl⟩)

theorem md5DigestBody_cases (s : State) :
    (2 ^ 29 ≤ s.binlen.toNat ∧ md5DigestBody s = .error .invalidInput) ∨
    (s.binlen.toNat < 2 ^ 29 ∧ s.params.bufBytes < s.binlen.toNat ∧ md5DigestBody s = .error .bufferOverflow) ∨
    (s.binlen.toNat < 2 ^ 29 ∧ s.binlen.toNat ≤ s.params.bufBytes ∧
      md5DigestBody s =
        .ok ({ s with h := md5Hash (s.bin.readPrefix s.binlen.toNat) }.emitBytes
          (md5Sum (s.bin.readPrefix s.binlen.toNat)))) := by
  rcases Nat.lt_or_ge s.binlen.toNat (2 ^ 29) with h | h
  · rcases Nat.lt_or_ge s.params.bufBytes s.binlen.toNat with hl | hl
    · exact .inr (.inl ⟨h, hl, md5DigestBody_long h hl⟩)
    · exact .inr (.inr ⟨h, hl, md5DigestBody_ok h hl⟩)
  · exact .inl ⟨h, md5DigestBody_invalid h⟩

theorem utf8EncBody_cases (s : State) :
    utf8EncBody s = .error .bufferOverflow ∨ utf8EncBody s = .error .invalidCharacterCode ∨
    ∃ out, s.tinlen.toNat ≤ s.params.bufCps ∧ utf8Encode (s.tin.readPrefix s.tinlen.toNat) = .ok out ∧
      out.length ≤ s.params.bufBytes ∧ utf8EncBody s = .ok (s.emitBytes out) := by
  rcases Nat.lt_or_ge s.params.bufCps s.tinlen.toNat with hl | hl
  · exact .inl (utf8EncBody_long hl)
  · cases he : utf8Encode (s.tin.readPrefix s.tinlen.toNat) with
    | error f => exact .inr (.inl (utf8Encode_error he ▸ utf8EncBody_invalid hl he))
    | ok out =>
      rcases Nat.lt_or_ge s.params.bufBytes out.length with ho | ho
      · exact .inl (utf8EncBody_full hl he ho)
      · exact .inr (.inr ⟨out, hl, rfl, ho, utf8EncBody_ok hl he ho⟩)

theorem utf8DecBody_cases (s : State) :
    utf8DecBody s = .error .bufferOverflow ∨ utf8DecBody s = .error .invalidUtf8Sequence ∨
    ∃ out, s.binlen.toNat ≤ s.params.bufBytes ∧ utf8Decode (s.bin.readPrefix s.binlen.toNat) = .ok out ∧
      out.length ≤ s.params.bufCps ∧ utf8DecBody s = .ok (s.emitText out) := by
  rcases Nat.lt_or_ge s.params.bufBytes s.binlen.toNat with hl | hl
  · exact .inl (utf8DecBody_long hl)
  · cases he : utf8Decode (s.bin.readPrefix s.binlen.toNat) with
    | error f => exact .inr (.inl (utf8Decode_error he ▸ utf8DecBody_invalid hl he))
    | ok out =>
      rcases Nat.lt_or_ge s.params.bufCps out.length with ho | ho
      · exact .inl (utf8DecBody_full hl he ho)
      · exact .inr (.inr ⟨out, hl, rfl, ho, utf8DecBody_ok hl he ho⟩)

theorem b64EncBody_cases (s : State) :
    b64EncBody s = .error .bufferOverflow ∨
    (s.binlen.toNat ≤ s.params.bufBytes ∧ 4 * ((s.binlen.toNat + 2) / 3) ≤ s.params.bufCps ∧
      b64EncBody s = .ok (s.emitText (b64Encode (s.bin.readPrefix s.binlen.toNat)))) := by
  rcases Nat.lt_or_ge s.params.bufBytes s.binlen.toNat with hl | hl
  · exact .inl (b64EncBody_long hl)
  · rcases Nat.lt_or_ge s.params.bufCps (4 * ((s.binlen.toNat + 2) / 3)) with ho | ho
    · exact .inl (b64EncBody_full hl ho)
    · exact .inr ⟨hl, ho, b64EncBody_ok hl ho⟩

theorem b64DecBody_cases (s : State) :
    b64DecBody s = .error .bufferOverflow ∨ b64DecBody s = .error .decodeFailure ∨
    ∃ out, s.tinlen.toNat ≤ s.params.bufCps ∧ b64Decode (s.tin.readPrefix s.tinlen.toNat) = .ok out ∧
      out.length ≤ s.params.bufBytes ∧ b64DecBody s = .ok (s.emitBytes out) := by
  rcases Nat.lt_or_ge s.params.bufCps s.tinlen.toNat with hl | hl
  · exact .inl (b64DecBody_long hl)
  · cases he : b64Decode (s.tin.readPrefix s.tinlen.toNat) with
    | error f => exact .inr (.inl (b64Decode_error he ▸ b64DecBody_invalid hl he))
    | ok out =>
      rcases Nat.lt_or_ge s.params.bufBytes out.length with ho | ho
      · exact .inl (b64DecBody_full hl he ho)
      · exact .inr (.inr ⟨out, hl, rfl, ho, b64DecBody_ok hl he ho⟩)

theorem hexEncBody_cases (s : State) :
    hexEncBody s = .error .bufferOverflow ∨
    (s.binlen.toNat ≤ s.params.bufBytes ∧ 2 * s.binlen.toNat ≤ s.params.bufCps ∧
      hexEncBody s = .ok (s.emitText (hexEncode (s.bin.readPrefix s.binlen.toNat)))) := by
  rcases Nat.lt_or_ge s.params.bufBytes s.binlen.toNat with hl | hl
  · exact .inl (hexEncBody_long hl)
  · rcases Nat.lt_or_ge s.params.bufCps (2 * s.binlen.toNat) with ho | ho
    · exact .inl (hexEncBody_full hl ho)
    · exact .inr ⟨hl, ho, hexEncBody_ok hl ho⟩

theorem constructBody_cases (s : State) :
    constructBody s = .error .bufferOverflow ∨ constructBody s = .error .invalidCharacterCode ∨
    ∃ pb, s.tinlen.toNat ≤ s.params.bufCps ∧ utf8Encode (s.tin.readPrefix s.tinlen.toNat) = .ok pb ∧
      constructBody s = .ok { s with
        pw := s.pw.writePrefix (s.tin.readPrefix s.tinlen.toNat), pwlen := s.tinlen.toNat,
        digest := padTo 32 (createPasswordDigest s.params.sha1 pb), pks := createKeySchedule pb, objv := true } := by
  rcases Nat.lt_or_ge s.params.bufCps s.tinlen.toNat with hl | hl
  · exact .inl (constructBody_long hl)
  · cases he : utf8Encode (s.tin.readPrefix s.tinlen.toNat) with
    | error f => exact .inr (.inl (utf8Encode_error he ▸ constructBody_invalid hl he))
    | ok pb => exact .inr (.inr ⟨pb, hl, rfl, constructBody_ok hl he⟩)

theorem encryptBody_cases (t : TimeSample) (s : State) :
    encryptBody t s = .error .noObject ∨ encryptBody t s = .error .bufferOverflow ∨
    encryptBody t s = .error .invalidCharacterCode ∨
    ∃ pt, s.objv = true ∧ s.tinlen.toNat ≤ s.params.bufCps ∧
      utf8Encode (s.tin.readPrefix s.tinlen.toNat) = .ok pt ∧ 4 * ((8 + pt.length + 2) / 3) ≤ s.params.bufCps ∧
      encryptBody t s = .ok (s.emitText (b64Encode (sealBytes s.pks (makeNonce t) pt))) := by
  rcases Bool.eq_false_or_eq_true s.objv with h | h
  rotate_left
  · exact .inl (encryptBody_none t h)
  · rcases Nat.lt_or_ge s.params.bufCps s.tinlen.toNat with hl | hl
    · exact .inr (.inl (encryptBody_long t h hl))
    · cases he : utf8Encode (s.tin.readPrefix s.tinlen.toNat) with
      | error f => exact .inr (.inr (.inl (utf8Encode_error he ▸ encryptBody_invalid t h hl he)))
      | ok pt =>
        rcases Nat.lt_or_ge s.params.bufCps (4 * ((8 + pt.length + 2) / 3)) with ho | ho
        · exact .inr (.inl (encryptBody_full t h hl he ho))
        · exact .inr (.inr (.inr ⟨pt, h, hl, rfl, ho, encryptBody_ok t h hl he ho⟩))

theorem decryptBody_cases (s : State) :
    decryptBody s = .error .noObject ∨ decryptBody s = .error .bufferOverflow ∨
    decryptBody s = .error .decodeFailure ∨ decryptBody s = .error .invalidUtf8Sequence ∨
    ∃ raw out, s.objv = true ∧ s.tinlen.toNat ≤ s.params.bufCps ∧
      b64Decode (s.tin.readPrefix s.tinlen.toNat) = .ok raw ∧ 8 ≤ raw.length ∧
      utf8Decode (ctrXform (nonceBlock raw) (raw.drop 8) s.pks facadeRounds).1 = .ok out ∧
      decryptBody s = .ok (s.emitText out) := by
  rcases Bool.eq_false_or_eq_true s.objv with h | h
  rotate_left
  · exact .inl (decryptBody_none h)
  · rcases Nat.lt_or_ge s.params.bufCps s.tinlen.toNat with hl | hl
    · exact .inr (.inl (decryptBody_long h hl))
    · cases he : b64Decode (s.tin.readPrefix s.tinlen.toNat) with
      | error f => exact .inr (.inr (.inl (b64Decode_error he ▸ decryptBody_base64 h hl he)))
      | ok raw =>
        rcases Nat.lt_or_ge raw.length 8 with hr | hr
        · exact .inr (.inr (.inl (decryptBody_short h hl he hr)))
        · cases hu : utf8Decode (ctrXform (nonceBlock raw) (raw.drop 8) s.pks facadeRounds).1 with
          | error f => exact .inr (.inr (.inr (.inl (utf8Decode_error hu ▸ decryptBody_utf8 h hl he hr hu))))
          | ok out => exact .inr (.inr (.inr (.inr ⟨raw, out, h, hl, rfl, hr, hu, decryptBody_ok h hl he hr hu⟩)))

theorem getDigestBody_cases (s : State) :
    (s.objv = false ∧ getDigestBody s = .error .noObject) ∨
    (s.objv = true ∧ getDigestBody s = .ok (s.emitText (s.digest.toList.map (fun b => b.setWidth 32)))) := by
  rcases Bool.eq_false_or_eq_true s.objv with h | h
  rotate_left
  · exact .inl ⟨h, getDigestBody_none h⟩
  · exact .inr ⟨h, getDigestBody_ok h⟩

theorem getPasswordBody_cases (s : State) :
    (s.objv = false ∧ getPasswordBody s = .error .noObject) ∨
    (s.objv = true ∧ getPasswordBody s = .ok (s.emitText s.storedPassword)) := by
  rcases Bool.eq_false_or_eq_true s.objv with h | h
  rotate_left
  · exact .inl ⟨h, getPasswordBody_none h⟩
  · exact .inr ⟨h, getPasswordBody_ok h⟩

end Sys2Proof.Machine
end

