-- ==== Sys2Proof/Laws/PerInstr.lean ====
section
/-! SUPPORT. The family `CommandWord`: what the word of each command holds in its opcode field and above its operand
(spec 30_encoding.md R91, R92). -/

namespace Sys2Proof.Laws.CommandWord

open Sys2Proof

/-- Bits 7:0 of the command's word are its opcode, and bits 31:10 are zero. -/
def Statement (i : Instr) : Prop := fieldOpc (encode i) = opcode i ∧ fieldZeroK (encode i) = 0#22

theorem nop : Statement .nop := by unfold Statement; decide

theorem aesKeyexp (ksz : BitVec 2) : Statement (.aesKeyexp ksz) := by
  revert ksz; unfold Statement; decide

theorem aesCipher : Statement .aesCipher := by unfold Statement; decide

theorem aesInvcipher : Statement .aesInvcipher := by unfold Statement; decide

theorem md5Init : Statement .md5Init := by unfold Statement; decide

theorem md5Block : Statement .md5Block := by unfold Statement; decide

theorem md5Digest : Statement .md5Digest := by unfold Statement; decide

theorem ctrInc : Statement .ctrInc := by unfold Statement; decide

theorem ctrXform : Statement .ctrXform := by unfold Statement; decide

theorem utf8Enc : Statement .utf8Enc := by unfold Statement; decide

theorem utf8Dec : Statement .utf8Dec := by unfold Statement; decide

theorem b64Enc : Statement .b64Enc := by unfold Statement; decide

theorem b64Dec : Statement .b64Dec := by unfold Statement; decide

theorem hexEnc : Statement .hexEnc := by unfold Statement; decide

theorem pwConstruct : Statement .pwConstruct := by unfold Statement; decide

theorem pwEncrypt : Statement .pwEncrypt := by unfold Statement; decide

theorem pwDecrypt : Statement .pwDecrypt := by unfold Statement; decide

theorem pwGetdigest : Statement .pwGetdigest := by unfold Statement; decide

theorem pwGetpassword : Statement .pwGetpassword := by unfold Statement; decide

theorem clrerr : Statement .clrerr := by unfold Statement; decide

theorem sreset : Statement .sreset := by unfold Statement; decide

end Sys2Proof.Laws.CommandWord
end

