-- ==== Sys2Proof/Laws/Script.lean ====
section
/-! SUPPORT. What running a host script does, line by line. -/

namespace Sys2Proof.Machine

@[simp] theorem runScript_nil (s : State) : runScript s [] = some s := rfl

@[simp] theorem runScript_cons (s : State) (l : ScriptLine) (ls : List ScriptLine) :
    runScript s (l :: ls) = (runLine s l).bind (fun t => runScript t ls) := rfl

theorem runScript_append (s : State) (ls ms : List ScriptLine) :
    runScript s (ls ++ ms) = (runScript s ls).bind (fun t => runScript t ms) := by
  induction ls generalizing s with
  | nil => simp
  | cons l ls ih => cases h : runLine s l <;> simp [h, ih]

@[simp] theorem runLine_wr8 (s : State) (k : ByteArr) (i : Nat) (v : Byte) :
    runLine s (.wr8 k i v) = some (s.hostWriteByte (byteOffset k i) v) := rfl

theorem runLine_wr32 {k : WordArr} {i : Nat} (h : wordOffset k i ≠ cmdOffset) (s : State) (v : Word) :
    runLine s (.wr32 k i v) = some (s.hostWriteWord (wordOffset k i) v) := by
  simp [runLine, ScriptLine.event, ScriptLine.expected, serve_writeWord h]

@[simp] theorem runLine_time (s : State) (t : TimeSample) : runLine s (.time t) = some (s.driveTime t) := rfl

/-- A script placed where nothing is pending: the next step serves its first line, and the rest stays placed. -/
theorem step_loadScript {s : State} (h : s.events = []) (l : ScriptLine) (ls : List ScriptLine) :
    step (s.loadScript (l :: ls)) = serve (s.loadScript ls) l.event := by
  rw [step_event (e := l.event) (rest := ls.map ScriptLine.event) (by simp [State.loadScript, h])]
  simp [State.loadScript, h]

end Sys2Proof.Machine
end

