-- ==== Sys2Proof/Tests/Slice0.lean ====
section
/-! SUPPORT. Tests of the model, each a named theorem: the smoke test of WellFormed, words written out from the spec's
encodings, one step of every command with the result the spec prints, bus accesses, and for every statement with
hypotheses a concrete state that meets them. Expected values are the spec's own examples, by the rule cited. -/

namespace Sys2Proof.Tests

open Sys2Proof Sys2Proof.Machine

/-! ### Helpers -/

/-- The state a command or a step answers (it never stops). -/
def after : Host.Outcome State Fault Refusal → State
  | .next s => s
  | .fault _ => State.reset
  | .refused _ => State.reset

/-- Bytes in `BIN`, their number in `BINLEN`. -/
def withBytes (s : State) (b : List Byte) : State :=
  { s with bin := Memory.writePrefix [] b, binlen := BitVec.ofNat 32 b.length }

/-- Code points in `TIN`, their number in `TINLEN`. -/
def withText (s : State) (t : List Word) : State :=
  { s with tin := Memory.writePrefix [] t, tinlen := BitVec.ofNat 32 t.length }

/-- The code points of an ASCII text. -/
def ascii (t : String) : List Word := t.toList.map (fun c => BitVec.ofNat 32 c.toNat)

/-- After reset, on the smallest legal instance (00_scope.md R11, R12). -/
def small : State := { State.reset with params := { bufBytes := 64, bufCps := 32, sha1 := .standard } }

/-- One event pending. -/
def facing (s : State) (e : HostEvent) : State := { s with events := [e] }

/-! ### WellFormed -/

theorem test_wf_refuses_reserved_key_size : (Instr.aesKeyexp 3#2).wf = false := by decide

theorem test_wf_accepts_key_sizes : ∀ k : BitVec 2, (Instr.aesKeyexp k).wf = decide (k ≠ 3#2) := by decide

/-! ### Decoding: words written out from R91, R92 and R94 -/

theorem test_decode_nop : decode 0b00000000000000000000000000000000#32 = some .nop := by decide
theorem test_decode_keyexp128 : decode 0b00000000000000000000000000000001#32 = some (.aesKeyexp 0#2) := by decide
theorem test_decode_keyexp192 : decode 0b00000000000000000000000100000001#32 = some (.aesKeyexp 1#2) := by decide
theorem test_decode_keyexp256 : decode 0b00000000000000000000001000000001#32 = some (.aesKeyexp 2#2) := by decide
theorem test_decode_cipher : decode 0b00000000000000000000000000000010#32 = some .aesCipher := by decide
theorem test_decode_invcipher : decode 0b00000000000000000000000000000011#32 = some .aesInvcipher := by decide
theorem test_decode_md5init : decode 0b00000000000000000000000000010000#32 = some .md5Init := by decide
theorem test_decode_md5block : decode 0b00000000000000000000000000010001#32 = some .md5Block := by decide
theorem test_decode_md5digest : decode 0b00000000000000000000000000010010#32 = some .md5Digest := by decide
theorem test_decode_ctrinc : decode 0b00000000000000000000000000100000#32 = some .ctrInc := by decide
theorem test_decode_ctrxform : decode 0b00000000000000000000000000100001#32 = some .ctrXform := by decide
theorem test_decode_utf8enc : decode 0b00000000000000000000000000110000#32 = some .utf8Enc := by decide
theorem test_decode_utf8dec : decode 0b00000000000000000000000000110001#32 = some .utf8Dec := by decide
theorem test_decode_b64enc : decode 0b00000000000000000000000000110010#32 = some .b64Enc := by decide
theorem test_decode_b64dec : decode 0b00000000000000000000000000110011#32 = some .b64Dec := by decide
theorem test_decode_hexenc : decode 0b00000000000000000000000000110100#32 = some .hexEnc := by decide
theorem test_decode_construct : decode 0b00000000000000000000000001000000#32 = some .pwConstruct := by decide
theorem test_decode_encrypt : decode 0b00000000000000000000000001000001#32 = some .pwEncrypt := by decide
theorem test_decode_decrypt : decode 0b00000000000000000000000001000010#32 = some .pwDecrypt := by decide
theorem test_decode_getdigest : decode 0b00000000000000000000000001000011#32 = some .pwGetdigest := by decide
theorem test_decode_getpassword : decode 0b00000000000000000000000001000100#32 = some .pwGetpassword := by decide
theorem test_decode_clrerr : decode 0b00000000000000000000000001111110#32 = some .clrerr := by decide
theorem test_decode_sreset : decode 0b00000000000000000000000001111111#32 = some .sreset := by decide

/-- The four illegal words of 60_exceptions.md R272. -/
theorem test_decode_illegal :
    [0x00000004#32, 0x00000301#32, 0x00000102#32, 0xFFFFFFFF#32].map decode = [none, none, none, none] := by decide

theorem test_table_word : decodeTableWord 32 0x00000201 = some (.aesKeyexp 2#2) := by decide

theorem test_fetch_word : after (step (State.reset.withFetchWord 32 0x00000010)) =
    { State.reset with
      cmd := 0x00000010#32, response := .written,
      h := #v[0x67452301#32, 0xEFCDAB89#32, 0x98BADCFE#32, 0x10325476#32] } := by rfl

/-! ### Housekeeping -/

/-- 60_exceptions.md R284: after a fault with `ERR` = 0x11, `STATUS` = 0x01, `NOP` leaves `ERR` = 0x00, `STATUS` = 0x01. -/
theorem test_nop : (after (exec .nop (State.reset.raise .noSchedule))).errWord = 0x00#32 ∧
    (after (exec .nop (State.reset.raise .noSchedule))).statusWord = 0x01#32 := by decide +kernel

/-- 60_exceptions.md R285: `STATUS` = 0x000000A3 becomes 0x000000A2. -/
theorem test_clrerr : { State.reset with errf := true, ksv := true, nr := 10#4 }.statusWord = 0xA3#32 ∧
    (after (exec .clrerr { State.reset with errf := true, ksv := true, nr := 10#4 })).statusWord = 0xA2#32 := by
  decide +kernel

/-- 70_reset_and_hazards.md R302: everything is cleared but `CMD`. -/
theorem test_sreset : after (exec .sreset { withText State.reset (ascii "abc") with
    cmd := 0x7F#32, objv := true, errf := true, err := 0x12#8, pwlen := 3 }) =
    { State.reset with cmd := 0x7F#32 } := by rfl

/-! ### Block Cipher Engine -/

/-- The key of 40_aes_key_expansion.md R117 in `KEY[0..16)`, and bytes after it that are ignored. -/
def keyState : State :=
  { State.reset with
    key := padTo 32 [0x2b, 0x7e, 0x15, 0x16, 0x28, 0xae, 0xd2, 0xa6, 0xab, 0xf7, 0x15, 0x88, 0x09, 0xcf, 0x4f, 0x3c,
      0x55],
    ks := Vector.replicate 240 0xAA#8 }

/-- 40_aes_key_expansion.md R117: `KS[16..32)`, `KS[160..176)`, the zero tail, `STATUS`. -/
theorem test_keyexp :
    let t := after (exec (.aesKeyexp 0#2) keyState)
    (t.ks.toList.drop 16).take 16 = [0xa0, 0xfa, 0xfe, 0x17, 0x88, 0x54, 0x2c, 0xb1, 0x23, 0xa3, 0x39, 0x39, 0x2a, 0x6c,
      0x76, 0x05] ∧
    (t.ks.toList.drop 160).take 16 = [0xd0, 0x14, 0xf9, 0xa8, 0xc9, 0xee, 0x25, 0x89, 0xe1, 0x3f, 0x0c, 0xc8, 0xb6, 0x63,
      0x0c, 0xa6] ∧
    t.ks.toList.drop 176 = List.replicate 64 0x00#8 ∧ t.statusWord = 0xA2#32 := by decide +kernel

/-- 40_aes_key_expansion.md R118, third key: the words 12 (case b), 16 and 59. -/
theorem test_keyexp256 :
    let w := keyExpansionWords [0x60, 0x3d, 0xeb, 0x10, 0x15, 0xca, 0x71, 0xbe, 0x2b, 0x73, 0xae, 0xf0, 0x85, 0x7d, 0x77,
      0x81, 0x1f, 0x35, 0x2c, 0x07, 0x3b, 0x61, 0x08, 0xd7, 0x2d, 0x98, 0x10, 0xa3, 0x09, 0x14, 0xdf, 0xf4] 8
    scheduleWord w 12 = #v[0xa8, 0xb0, 0x9c, 0x1a] ∧ scheduleWord w 16 = #v[0xd5, 0x9a, 0xec, 0xb8] ∧
    scheduleWord w 59 = #v[0x70, 0x6c, 0x63, 0x1e] := by decide +kernel

/-- The schedule of the key 00 01 .. 0f, valid, with a block. -/
def cipherState (block : List Byte) : State :=
  { State.reset with
    ks := padTo 240 (keyExpansion ((List.range 16).map (BitVec.ofNat 8)) 4), ksv := true, nr := 10#4,
    blk := padTo 16 block }

/-- 41_aes_cipher.md R142. -/
theorem test_cipher : (after (exec .aesCipher (cipherState [0x00, 0x11, 0x22, 0x33, 0x44, 0x55, 0x66, 0x77, 0x88, 0x99,
    0xaa, 0xbb, 0xcc, 0xdd, 0xee, 0xff]))).blk = #v[0x69, 0xc4, 0xe0, 0xd8, 0x6a, 0x7b, 0x04, 0x30, 0xd8, 0xcd, 0xb7, 0x80,
    0x70, 0xb4, 0xc5, 0x5a] := by decide +kernel

/-- 42_aes_inv_cipher.md R155. -/
theorem test_invcipher : (after (exec .aesInvcipher (cipherState [0x69, 0xc4, 0xe0, 0xd8, 0x6a, 0x7b, 0x04, 0x30, 0xd8,
    0xcd, 0xb7, 0x80, 0x70, 0xb4, 0xc5, 0x5a]))).blk = #v[0x00, 0x11, 0x22, 0x33, 0x44, 0x55, 0x66, 0x77, 0x88, 0x99, 0xaa,
    0xbb, 0xcc, 0xdd, 0xee, 0xff] := by decide +kernel

/-- 60_exceptions.md R278. -/
theorem test_cipher_no_schedule : after (exec .aesCipher State.reset) =
    { State.reset with err := 0x11#8, errf := true } := by rfl

/-- 41_aes_cipher.md R131. -/
theorem test_gmul : gmul 0x57#8 0x13#8 = 0xfe#8 ∧ gmul 0x57#8 0x83#8 = 0xc1#8 := by decide

/-- 41_aes_cipher.md R136, four of its columns. -/
theorem test_mixcolumns : mixColumns #v[0xdb, 0x13, 0x53, 0x45, 0xf2, 0x0a, 0x22, 0x5c, 0x01, 0x01, 0x01, 0x01, 0xd4, 0xbf,
    0x5d, 0x30] = #v[0x8e, 0x4d, 0xa1, 0xbc, 0x9f, 0xdc, 0x58, 0x9d, 0x01, 0x01, 0x01, 0x01, 0x04, 0x66, 0x81, 0xe5] := by
  decide +kernel

/-! ### Hash Engine -/

/-- 43_md5.md R182: the padded block of "abc". -/
theorem test_md5_block : (after (exec .md5Block { State.reset with
    h := md5Iv, bin := Memory.writePrefix [] ([0x61, 0x62, 0x63, 0x80] ++ List.replicate 52 0#8 ++ [0x18]) })).h =
    #v[0x98500190#32, 0xb04fd23c#32, 0x7d3f96d6#32, 0x727fe128#32] := by decide +kernel

/-- 43_md5.md R183. -/
theorem test_md5_digest :
    let t := after (exec .md5Digest (withBytes State.reset [0x61, 0x62, 0x63]))
    t.bout.readPrefix 17 = [0x90, 0x01, 0x50, 0x98, 0x3c, 0xd2, 0x4f, 0xb0, 0xd6, 0x96, 0x3f, 0x7d, 0x28, 0xe1, 0x7f, 0x72,
      0x00] ∧ t.boutlen = 16#32 ∧ t.h[0] = 0x98500190#32 := by decide +kernel

/-- 43_md5.md R183: the length test comes before the capacity test. -/
theorem test_md5_digest_invalid : after (exec .md5Digest { State.reset with binlen := 0x20000000#32 }) =
    { State.reset with binlen := 0x20000000#32, err := 0x01#8, errf := true } := by rfl

/-! ### Counter mode -/

/-- 44_ctr.md R191. -/
theorem test_ctr_inc : (after (exec .ctrInc { State.reset with ctrblk := #v[0x65, 0x53, 0xf1, 0x00, 0x7b, 0x7b, 0x7b, 0x7b,
    0, 0, 0, 0, 0, 0, 0, 0xff] })).ctrblk = #v[0x65, 0x53, 0xf1, 0x00, 0x7b, 0x7b, 0x7b, 0x7b, 0, 0, 0, 0, 0, 0, 1, 0] := by
  decide +kernel

/-- 44_ctr.md R190: sixteen `ff` give sixteen `00`. -/
theorem test_ctr_inc_wraps : ctrInc (Vector.replicate 16 0xFF#8) = Vector.replicate 16 0x00#8 := by decide

/-- 44_ctr.md R193: "Counter mode test 20". -/
theorem test_ctr_xform :
    let t := after (exec .ctrXform { withBytes (cipherState []) ((ascii "Counter mode test 20").map (·.setWidth 8)) with
      ctrblk := #v[0x65, 0x53, 0xf1, 0x00, 0x7b, 0x7b, 0x7b, 0x7b, 0, 0, 0, 0, 0, 0, 0, 0] })
    t.bout.readPrefix 20 = [0xc4, 0xd1, 0x0c, 0xf2, 0x6d, 0xd4, 0xda, 0x3d, 0xae, 0xc6, 0x54, 0xa1, 0x45, 0x64, 0xf9, 0x0a,
      0xbe, 0x26, 0x38, 0x98] ∧ t.boutlen = 20#32 ∧
    t.ctrblk = #v[0x65, 0x53, 0xf1, 0x00, 0x7b, 0x7b, 0x7b, 0x7b, 0, 0, 0, 0, 0, 0, 0, 2] := by decide +kernel

/-! ### Codecs -/

/-- 45_codecs.md R203. -/
theorem test_utf8_enc :
    let t := after (exec .utf8Enc (withText State.reset [0x68#32, 0xE9#32, 0x20AC#32, 0x1F600#32]))
    t.bout.readPrefix 10 = [0x68, 0xc3, 0xa9, 0xe2, 0x82, 0xac, 0xf0, 0x9f, 0x98, 0x80] ∧ t.boutlen = 10#32 := by
  decide +kernel

/-- 60_exceptions.md R274. -/
theorem test_utf8_enc_invalid : (after (exec .utf8Enc (withText State.reset [0x68#32, 0x110000#32]))).err = 0x02#8 := by
  decide +kernel

/-- 45_codecs.md R206. -/
theorem test_utf8_dec :
    let t := after (exec .utf8Dec (withBytes State.reset [0xe2, 0x82, 0xac]))
    t.tout.read 0 = 0x20AC#32 ∧ t.toutlen = 1#32 ∧
    (after (exec .utf8Dec (withBytes State.reset [0xe2, 0x82]))).err = 0x03#8 := by decide +kernel

/-- 45_codecs.md R205: no lead byte, truncated, bad continuation, overlong, out of range. -/
theorem test_utf8_dec_malformed :
    [[0x80], [0xf0, 0x9f, 0x98], [0xc3, 0x28], [0xc0, 0x80], [0xe0, 0x9f, 0xbf], [0xf0, 0x8f, 0xbf, 0xbf],
      [0xf4, 0x90, 0x80, 0x80]].all (fun b => (utf8Decode b).toOption == none) = true := by decide +kernel

/-- 45_codecs.md R212. -/
theorem test_b64_enc :
    let t := after (exec .b64Enc (withBytes State.reset [0x66, 0x6f]))
    t.tout.readPrefix 4 = [0x5A#32, 0x6D#32, 0x38#32, 0x3D#32] ∧ t.toutlen = 4#32 := by decide +kernel

/-- 45_codecs.md R211. -/
theorem test_b64_chars : b64Encode [0xfb, 0xff, 0xbf] = ascii "+/+/" ∧ b64Encode [0xff] = ascii "/w==" := by decide +kernel

/-- 45_codecs.md R215. -/
theorem test_b64_dec :
    let t := after (exec .b64Dec (withText State.reset (ascii "Zm8=")))
    t.bout.readPrefix 2 = [0x66, 0x6f] ∧ t.boutlen = 2#32 := by decide +kernel

/-- 45_codecs.md R214. -/
theorem test_b64_dec_malformed :
    ["Zg", "Zg=", "Zm9vZ", "Zh==", "Zm9=", "Z===", "=Zg=", "====", "Zg=v", "Zg==Zm9v", "Zm-_"].all
      (fun t => (b64Decode (ascii t)).toOption == none) = true := by decide +kernel

/-- 45_codecs.md R218. -/
theorem test_hex_enc :
    let t := after (exec .hexEnc (withBytes State.reset [0x00, 0x0f, 0xa5, 0xff]))
    t.tout.readPrefix 8 = ascii "000fa5ff" ∧ t.toutlen = 8#32 := by decide +kernel

/-! ### The façade -/

/-- 46_facade.md R236: the object of "password". -/
theorem test_construct :
    let t := after (exec .pwConstruct (withText State.reset (ascii "password")))
    t.objv = true ∧ t.digest.toList = (ascii "0fe89a82b7714535af9e5bbd617ed301").map (·.setWidth 8) ∧
    t.pks.toList.take 16 = [0x05, 0x0e, 0xd8, 0x74, 0xb2, 0x45, 0x97, 0xd8, 0xf9, 0x66, 0xa9, 0xf9, 0x3a, 0xc7, 0xfd, 0x6e] ∧
    t.pwlen = 8 := by decide +kernel

/-- The object of "password", by its schedule (46_facade.md R234). -/
def objectState : State :=
  { State.reset with
    objv := true, pwlen := 8, pw := Memory.writePrefix [] (ascii "password"),
    digest := padTo 32 ((ascii "0fe89a82b7714535af9e5bbd617ed301").map (·.setWidth 8)),
    pks := facadeSchedule [0x05, 0x0e, 0xd8, 0x74, 0xb2, 0x45, 0x97, 0xd8, 0xf9, 0x66, 0xa9, 0xf9, 0x3a, 0xc7, 0xfd, 0x6e,
      0x05, 0x0e, 0xd8, 0x74, 0xb2, 0x45, 0x97, 0xd8, 0xf9, 0x66, 0xa9, 0xf9, 0x3a, 0xc7, 0xfd, 0x6e] }

/-- 46_facade.md R238: "hello" at 1700000000 s, 123 ms. -/
theorem test_encrypt :
    let t := after (exec .pwEncrypt { withText objectState (ascii "hello") with
      timeSamples := [{ sec := 1700000000#32, ms := 123#10 }] })
    t.outputText = ascii "ZVPxAHt7e3usy25eWg==" ∧ t.toutlen = 20#32 ∧ t.timeSamples = [] := by decide +kernel

/-- 46_facade.md R240. -/
theorem test_decrypt :
    (after (exec .pwDecrypt (withText objectState (ascii "ZVPxAHt7e3usy25eWg==")))).outputText = ascii "hello" := by
  decide +kernel

/-- 46_facade.md R240: three bytes are no nonce; a byte that decrypts to 0xff is no UTF-8. -/
theorem test_decrypt_faults :
    (after (exec .pwDecrypt (withText objectState (ascii "AAAA")))).err = 0x04#8 ∧
    (after (exec .pwDecrypt (withText objectState (ascii "ZVPxAHt7e3s7")))).err = 0x03#8 := by decide +kernel

/-- 46_facade.md R242. -/
theorem test_getdigest : (after (exec .pwGetdigest objectState)).outputText = ascii "0fe89a82b7714535af9e5bbd617ed301" := by
  decide +kernel

/-- 46_facade.md R243. -/
theorem test_getpassword : (after (exec .pwGetpassword objectState)).outputText = ascii "password" ∧
    (after (exec .pwGetpassword State.reset)).err = 0x12#8 := by decide +kernel

/-- 47_sha1_collaborator.md R263. -/
theorem test_sha1 : (sha1Standard [0x61, 0x62, 0x63]).toList = [0xa9, 0x99, 0x3e, 0x36, 0x47, 0x06, 0x81, 0x6a, 0xba, 0x3e,
    0x25, 0x71, 0x78, 0x50, 0xc2, 0x6c, 0x9c, 0xd0, 0xd8, 0x9d] := by decide +kernel

/-! ### The bus -/

/-- 20_memory.md R62, R65: a write to `BIN[4095]`, the last byte on the default instance; the next offset is unmapped. -/
theorem test_write_bin :
    (after (step (facing State.reset (.writeByte 0x10FFF#20 0x5A#8)))).bin = [(4095, 0x5A#8)] ∧
    (after (step (facing State.reset (.writeByte 0x11000#20 0x5A#8)))).response = .hostErr := by decide +kernel

/-- 20_memory.md R66, R67: a misaligned word, a byte access to a word location, a write to `STATUS`. -/
theorem test_refused_accesses :
    (after (step (facing State.reset (.readWord 0x0000D#20)))).response = .hostErr ∧
    (after (step (facing State.reset (.readByte 0x0000C#20)))).response = .hostErr ∧
    (after (step (facing State.reset (.writeWord 0x00004#20 1#32)))).response = .hostErr := by decide +kernel

/-- 20_memory.md R64: `KS` and `H[3]` are readable. -/
theorem test_reads :
    (after (step (facing (cipherState []) (.readByte 0x0010F#20)))).response = .byte 0x0F#8 ∧
    (after (step (facing { State.reset with h := md5Iv } (.readWord 0x0002C#20)))).response = .word 0x10325476#32 := by
  decide +kernel

/-- 10_state.md R32: a write of the value already there ends the schedule. -/
theorem test_key_write_clears_ksv :
    (after (step (facing { State.reset with ksv := true, nr := 14#4 } (.writeByte 0x0005F#20 0x00#8)))).statusWord = 0#32 := by
  decide +kernel

/-- 30_encoding.md R95. -/
theorem test_illegal_word : after (step (facing State.reset (.writeWord 0x00000#20 0x00000301#32))) =
    { State.reset with cmd := 0x00000301#32, response := .written, err := 0x10#8, errf := true } := by rfl

/-! ### Witnesses: for every statement with hypotheses, and for each of its clauses at a boundary, values that meet them -/

/-- The memories of `withBytes` and `withText` states are canonical. -/
theorem canonical_reset : State.reset.MemoriesCanonical := by unfold State.MemoriesCanonical; decide

theorem wit_StepRunsDecodedCommand : decode 0x00000201#32 = some (.aesKeyexp 2#2) ∧
    (facing State.reset (.writeWord cmdOffset 0x00000201#32)).events = .writeWord cmdOffset 0x00000201#32 :: [] := by decide

theorem wit_IllegalWordFaults : (facing State.reset (.writeWord cmdOffset 0x00000301#32)).events =
    .writeWord cmdOffset 0x00000301#32 :: [] ∧
    0x00000301#32 ∉ legalWords.map Prod.fst ∧ 0x00000100#32 ∉ legalWords.map Prod.fst ∧
    0x00000401#32 ∉ legalWords.map Prod.fst ∧ 0x00000080#32 ∉ legalWords.map Prod.fst ∧
    0xFFFFFFFF#32 ∉ legalWords.map Prod.fst := by
  refine ⟨by decide, by decide, by decide, by decide, by decide, by decide⟩

theorem wit_EveryCommandWriteEnds :
    (facing State.reset (.writeWord cmdOffset 0xFFFFFFFF#32)).events = .writeWord cmdOffset 0xFFFFFFFF#32 :: [] := by decide

theorem wit_HostReadAnswersLocation_byte :
    (facing State.reset (.readByte 0x20FFF#20)).events = .readByte 0x20FFF#20 :: [] ∧
    locateByte (facing State.reset (.readByte 0x20FFF#20)).params 0x20FFF#20 = some (⟨.bout, 0x20000, 4096, false⟩, 4095) ∧
    locateByte State.reset.params 0x21000#20 = none := by decide

theorem wit_HostReadAnswersLocation_word :
    (facing State.reset (.readWord 0x83FFC#20)).events = .readWord 0x83FFC#20 :: [] ∧
    locateWord (facing State.reset (.readWord 0x83FFC#20)).params 0x83FFC#20 = some (⟨.tout, 0x80000, 4096, false⟩, 4095) ∧
    locateWord State.reset.params 0x84000#20 = none := by decide

/-- The last element of each row of fixed size. -/
theorem wit_HostReadAnswersLocation_rows : 31 < 32 ∧ 15 < 16 ∧ 239 < 240 ∧ 3 < 4 := by decide

theorem wit_ByteWriteChangesOneLocation :
    (facing State.reset (.writeByte 0x10FFF#20 0xFF#8)).MemoriesCanonical ∧
    (facing State.reset (.writeByte 0x10FFF#20 0xFF#8)).events = .writeByte 0x10FFF#20 0xFF#8 :: [] ∧
    locateByte State.reset.params 0x10FFF#20 = some (⟨.bin, 0x10000, 4096, true⟩, 4095) ∧
    locateByte State.reset.params 0x00040#20 = some (⟨.key, 0x00040, 32, true⟩, 0) ∧
    locateByte State.reset.params 0x0005F#20 = some (⟨.key, 0x00040, 32, true⟩, 31) := ⟨canonical_reset, by decide⟩

theorem wit_WordWriteChangesOneLocation :
    (facing State.reset (.writeWord 0x43FFC#20 0xFFFFFFFF#32)).MemoriesCanonical ∧
    (facing State.reset (.writeWord 0x43FFC#20 0xFFFFFFFF#32)).events = .writeWord 0x43FFC#20 0xFFFFFFFF#32 :: [] ∧
    0x43FFC#20 ≠ cmdOffset ∧ locateWord State.reset.params 0x43FFC#20 = some (⟨.tin, 0x40000, 4096, true⟩, 4095) ∧
    locateWord State.reset.params 0x0000C#20 = some (⟨.binlen, 0x0000C, 1, true⟩, 0) := ⟨canonical_reset, by decide⟩

/-- One offset for each reason of R67: unmapped, wrong width, misaligned, read-only. -/
theorem wit_RefusedAccessChangesNothing :
    (facing State.reset (.writeByte 0x00100#20 1#8)).events = .writeByte 0x00100#20 1#8 :: [] ∧
    locateByte State.reset.params 0x00080#20 = none ∧ locateByte State.reset.params 0x0000C#20 = none ∧
    locateWord State.reset.params 0x0001C#20 = none ∧ locateWord State.reset.params 0x00022#20 = none ∧
    locateByte State.reset.params 0x00100#20 = some (⟨.ks, 0x00100, 240, false⟩, 0) ∧
    locateWord State.reset.params 0x00004#20 = some (⟨.status, 0x00004, 1, false⟩, 0) := by decide

/-- The readOnly clauses as they are stated: every location found there is read-only. -/
theorem wit_RefusedAccessChangesNothing_readOnly :
    (∀ r i, locateByte State.reset.params 0x001EF#20 = some (r, i) → r.writable = false) ∧
    (∀ r i, locateWord State.reset.params 0x00018#20 = some (r, i) → r.writable = false) := by
  have h1 : locateByte State.reset.params 0x001EF#20 = some (⟨.ks, 0x00100, 240, false⟩, 239) := by decide
  have h2 : locateWord State.reset.params 0x00018#20 = some (⟨.toutlen, 0x00018, 1, false⟩, 0) := by decide
  refine ⟨fun r i h => ?_, fun r i h => ?_⟩
  · rw [h1] at h; injection h with h; injection h with h; rw [← h]
  · rw [h2] at h; injection h with h; injection h with h; rw [← h]

/-- The smallest, the default and the largest instance; the first and last element of a row of each width; the edges of
the unmapped ranges; a misaligned word. -/
theorem wit_AddressMapIsExact :
    small.params.Legal ∧ Config.defaultParams.Legal ∧
    ({ bufBytes := 65536, bufCps := 65536, sha1 := .standard } : Params).Legal ∧
    ⟨.bin, 0x10000, 64, true⟩ ∈ byteRows small.params ∧ (63 < 64 ∧ (0x1003F#20).toNat = 0x10000 + 63) ∧
    ⟨.tout, 0x80000, 65536, false⟩ ∈ wordRows { bufBytes := 65536, bufCps := 65536, sha1 := .standard } ∧
    (65535 < 65536 ∧ (0xBFFFC#20).toNat = 0x80000 + 4 * 65535) ∧
    (0x00020 ≤ (0x0002F#20).toNat ∧ (0x0002F#20).toNat < 0x00020 + 4 * 4 ∧ (0x0002F#20).toNat % 4 ≠ 0) ∧
    0x0001C ≤ (0x0001C#20).toNat ∧ 0x001F0 ≤ (0x0FFFF#20).toNat ∧
    0x10000 + small.params.bufBytes ≤ (0x10040#20).toNat ∧ 0x80000 + 4 * small.params.bufCps ≤ (0xFFFFF#20).toNat := by
  decide

theorem wit_ReadReturnsLastWrite :
    let s : State := { State.reset with events := [.writeByte 0x00060#20 7#8, .readByte 0x00060#20] }
    let u : State := { State.reset with events := [.writeWord 0x00000#20 0x7F#32, .readWord 0x00000#20] }
    s.MemoriesCanonical ∧ s.events = .writeByte 0x00060#20 7#8 :: .readByte 0x00060#20 :: [] ∧
    locateByte s.params 0x00060#20 = some (⟨.blk, 0x00060, 16, true⟩, 0) ∧
    u.events = .writeWord 0x00000#20 0x7F#32 :: .readWord 0x00000#20 :: [] ∧
    locateWord u.params 0x00000#20 = some (⟨.cmd, 0x00000, 1, true⟩, 0) := ⟨canonical_reset, by decide⟩

theorem wit_KeyWriteEndsSchedule :
    (facing State.reset (.writeByte 0x0005F#20 0#8)).events = .writeByte 0x0005F#20 0#8 :: [] ∧
    (0x0005F#20).toNat = 0x00040 + 31 ∧ 31 < 32 ∧ (0x00040#20).toNat = 0x00040 + 0 := by decide

/-- A command that completes and one that faults. -/
theorem wit_FaultsArePrecise : Instr.wf .nop = true ∧ exec .nop State.reset = .next { State.reset with err := 0#8 } ∧
    Instr.wf .aesCipher = true ∧
    exec .aesCipher State.reset = .next { State.reset with err := 0x11#8, errf := true } := ⟨rfl, rfl, rfl, rfl⟩

theorem wit_FaultMatrixIsExact : Instr.wf .aesCipher = true ∧ CmdFault.noSchedule ∈ faultsOf .aesCipher ∧
    State.reset.params.Legal ∧
    exec .aesCipher State.reset = .next { State.reset with err := 0x11#8, errf := true } ∧
    CmdFault.noObject ∉ faultsOf .aesCipher := ⟨rfl, by decide, by decide, rfl, by decide⟩

/-- A command of each case of the flag rules. -/
theorem wit_StatusFlagsFollowCommands :
    (∃ t, exec (.aesKeyexp 2#2) State.reset = .next t) ∧ (∃ t, exec .sreset State.reset = .next t) ∧
    (∃ t, exec .clrerr State.reset = .next t) ∧ (∃ t, exec .pwConstruct State.reset = .next t) ∧
    ∃ t, exec .pwEncrypt State.reset = .next t := ⟨⟨_, rfl⟩, ⟨_, rfl⟩, ⟨_, rfl⟩, ⟨_, rfl⟩, ⟨_, rfl⟩⟩

/-- A command that writes neither the schedule's flags nor the object, and `PW.ENCRYPT`. -/
theorem wit_CommandsWriteOnlyTheirState :
    (∃ t, exec .hexEnc State.reset = .next t) ∧ writesScheduleFlags .hexEnc = false ∧ writesObject .hexEnc = false ∧
    .bout ∉ bytesWritten .hexEnc ∧ .h ∉ wordsWritten .hexEnc ∧ ∃ t, exec .pwEncrypt State.reset = .next t :=
  ⟨⟨_, rfl⟩, by decide, by decide, by decide, by decide, ⟨_, rfl⟩⟩

theorem wit_HardwareResetForgetsState : (facing objectState .hwReset).events = .hwReset :: [] := by decide

/-- A state that meets the invariant beyond reset: capacities 64 and 32, bytes in `BIN`, a text in `TOUT`, a recorded
fault, and the write of a command pending. -/
def busyState : State :=
  { small with
    bin := [(3, 7#8), (63, 1#8)], binlen := 64#32, tout := [(0, 0x41#32)], toutlen := 1#32, err := 0x11#8, errf := true,
    events := [.writeWord cmdOffset 0x00000033#32] }

theorem wit_StepKeepsInvariant : busyState.Inv ∧ ∃ t, step busyState = .next t := by
  refine ⟨?_, ⟨_, rfl⟩⟩
  exact {
    legal := by decide
    canonical := by unfold State.MemoriesCanonical; decide
    within := by simp [State.MemoriesWithin, Memory.Within, busyState, small, State.reset]
    lengths := by unfold State.LengthsFit; decide
    rounds := by unfold State.RoundsMatchFlag; decide
    tail := by unfold State.ScheduleTailZero; intro h; exact absurd h (by decide)
    text := by
      refine ⟨fun i => ?_, fun i => ?_⟩
      · show (if 0 = i then 0x41#32 else 0#32) < 0x110000#32
        split <;> decide
      · show 0#32 < 0x110000#32
        decide
    digestHex := by unfold State.DigestIsHex; intro h; exact absurd h (by decide)
    errCode := .inr ⟨.noSchedule, rfl⟩
    sticky := fun _ => rfl
    doubled := by unfold State.ObjectKeyDoubled; intro h; exact absurd h (by decide) }

theorem wit_ObjectIsIsolated : (∀ c, HostEvent.readByte 0x00100#20 ≠ .writeWord cmdOffset c) ∧
    HostEvent.readByte 0x00100#20 ≠ .hwReset ∧ (∀ c, HostEvent.writeWord 0x0000C#20 5#32 ≠ .writeWord cmdOffset c) ∧
    touchesObject .ctrXform = false := by
  refine ⟨fun c h => (by cases h), (by decide), fun c h => ?_, (by decide)⟩
  injection h with h
  exact absurd h (by decide)

theorem wit_KeyexpResult : (0#2 : BitVec 2) ≠ 3#2 ∧ (1#2 : BitVec 2) ≠ 3#2 ∧ (2#2 : BitVec 2) ≠ 3#2 := by decide

/-- `KSV` 0, after reset; `KSV` 1, after `AES.KEYEXP`; the smallest and the largest number of rounds, and the first and
the last middle round of 14. -/
theorem wit_CipherCommandsResult : State.reset.ksv = false ∧ (cipherState []).ksv = true ∧
    (1 ≤ 10 ∧ 1 ≤ 14) ∧ (1 ≤ 1 ∧ 1 < 14) ∧ 1 ≤ 13 ∧ 13 < 14 := by decide

theorem wit_Md5DigestResult :
    2 ^ 29 ≤ ({ State.reset with binlen := 0x20000000#32 } : State).binlen.toNat ∧
    (({ State.reset with binlen := 0x1FFFFFFF#32 } : State).binlen.toNat < 2 ^ 29 ∧
      State.reset.params.bufBytes < ({ State.reset with binlen := 0x1FFFFFFF#32 } : State).binlen.toNat) ∧
    State.reset.params.bufBytes < ({ State.reset with binlen := 4097#32 } : State).binlen.toNat ∧
    (({ State.reset with binlen := 4096#32 } : State).binlen.toNat < 2 ^ 29 ∧
      ({ State.reset with binlen := 4096#32 } : State).binlen.toNat ≤ State.reset.params.bufBytes) := by
  refine ⟨by decide, ⟨by decide, by decide⟩, by decide, by decide, by decide⟩

theorem wit_CtrXformResult :
    State.reset.ksv = false ∧ (cipherState []).ksv = true ∧
    (cipherState []).params.bufBytes < ({ cipherState [] with binlen := 4097#32 } : State).binlen.toNat ∧
    ({ cipherState [] with binlen := 4096#32 } : State).binlen.toNat ≤ (cipherState []).params.bufBytes := by
  refine ⟨rfl, rfl, ?_, ?_⟩ <;> show (_ : Nat) ≤ _ <;> decide

/-- 32 elements fit the smallest instance and 33 do not; 16 code points of four bytes fill `BOUT` and 17 do not fit; the
first value that has no encoding. -/
theorem wit_Utf8EncResult :
    small.params.bufCps < ({ small with tinlen := 33#32 } : State).tinlen.toNat ∧
    ({ small with tinlen := 32#32 } : State).tinlen.toNat ≤ small.params.bufCps ∧
    (∃ c ∈ (withText small [0x10FFFF#32, 0x110000#32]).tin.readPrefix 2, 0x110000 ≤ c.toNat) ∧
    (∃ out, utf8Encode ((withText small (List.replicate 17 0x10000#32)).tin.readPrefix 17) = .ok out ∧
      small.params.bufBytes < out.length) ∧
    ∃ out, utf8Encode ((withText small (List.replicate 16 0x10FFFF#32)).tin.readPrefix 16) = .ok out ∧
      out.length ≤ small.params.bufBytes :=
  ⟨by decide, by decide, ⟨0x110000#32, by decide, by decide⟩, ⟨_, rfl, by decide⟩, ⟨_, rfl, by decide⟩⟩

/-- 64 bytes fit the smallest instance and 65 do not; 33 one-byte code points do not fit `TOUT` and 32 do; malformed
bytes. -/
theorem wit_Utf8DecResult :
    small.params.bufBytes < ({ small with binlen := 65#32 } : State).binlen.toNat ∧
    ({ small with binlen := 64#32 } : State).binlen.toNat ≤ small.params.bufBytes ∧
    (∀ out, utf8Decode ((withBytes small [0xC0#8]).bin.readPrefix 1) ≠ .ok out) ∧
    (∃ out, utf8Decode ((withBytes small (List.replicate 33 0x7F#8)).bin.readPrefix 33) = .ok out ∧
      small.params.bufCps < out.length) ∧
    ∃ out, utf8Decode ((withBytes small (List.replicate 32 0x41#8)).bin.readPrefix 32) = .ok out ∧
      out.length ≤ small.params.bufCps := by
  refine ⟨by decide, by decide, fun out h => ?_, ⟨_, rfl, by decide⟩, ⟨_, rfl, by decide⟩⟩
  rw [show utf8Decode ((withBytes small [0xC0#8]).bin.readPrefix 1) = .error .invalidUtf8Sequence by decide] at h
  cases h

/-- 24 bytes give the 32 characters that fit the smallest instance, 25 do not fit. -/
theorem wit_B64EncResult :
    small.params.bufBytes < ({ small with binlen := 65#32 } : State).binlen.toNat ∧
    small.params.bufCps < 4 * ((({ small with binlen := 25#32 } : State).binlen.toNat + 2) / 3) ∧
    ({ small with binlen := 24#32 } : State).binlen.toNat ≤ small.params.bufBytes ∧
    4 * ((({ small with binlen := 24#32 } : State).binlen.toNat + 2) / 3) ≤ small.params.bufCps := by decide

/-- Text that is no Base64, text that is; an instance whose `BOUT` is too small for 88 characters. -/
theorem wit_B64DecResult :
    small.params.bufCps < ({ small with tinlen := 33#32 } : State).tinlen.toNat ∧
    ({ small with tinlen := 32#32 } : State).tinlen.toNat ≤ small.params.bufCps ∧
    (∀ out, b64Decode ((withText small [0x5A#32, 0x68#32, 0x3D#32, 0x3D#32]).tin.readPrefix 4) ≠ .ok out) ∧
    (∃ out, b64Decode ((withText { small with params := { small.params with bufCps := 88 } }
      (List.replicate 88 0x41#32)).tin.readPrefix 88) = .ok out ∧ small.params.bufBytes < out.length) ∧
    ∃ out, b64Decode ((withText small (List.replicate 32 0x2F#32)).tin.readPrefix 32) = .ok out ∧
      out.length ≤ small.params.bufBytes := by
  refine ⟨by decide, by decide, fun out h => ?_, ⟨_, rfl, by decide⟩, ⟨_, rfl, by decide⟩⟩
  rw [show b64Decode ((withText small [0x5A#32, 0x68#32, 0x3D#32, 0x3D#32]).tin.readPrefix 4) =
    .error .decodeFailure by decide] at h
  cases h

/-- 16 bytes give the 32 digits that fit the smallest instance, 17 do not fit. -/
theorem wit_HexEncResult :
    small.params.bufBytes < ({ small with binlen := 65#32 } : State).binlen.toNat ∧
    small.params.bufCps < 2 * ({ small with binlen := 17#32 } : State).binlen.toNat ∧
    ({ small with binlen := 16#32 } : State).binlen.toNat ≤ small.params.bufBytes ∧
    2 * ({ small with binlen := 16#32 } : State).binlen.toNat ≤ small.params.bufCps := by decide

theorem wit_ConstructResult :
    small.params.bufCps < ({ small with tinlen := 33#32 } : State).tinlen.toNat ∧
    ({ small with tinlen := 32#32 } : State).tinlen.toNat ≤ small.params.bufCps ∧
    (∃ c ∈ (withText small [0x110000#32]).tin.readPrefix 1, 0x110000 ≤ c.toNat) ∧
    ∃ pb, utf8Encode ((withText small [0x10FFFF#32]).tin.readPrefix 1) = .ok pb :=
  ⟨by decide, by decide, ⟨0x110000#32, by decide, by decide⟩, ⟨_, rfl⟩⟩

/-- On the smallest instance a plaintext of 16 bytes gives 32 characters, one of 17 bytes gives 36. -/
theorem wit_EncryptResult :
    small.objv = false ∧ ({ small with objv := true } : State).objv = true ∧
    small.params.bufCps < ({ small with tinlen := 33#32 } : State).tinlen.toNat ∧
    ({ small with tinlen := 32#32 } : State).tinlen.toNat ≤ small.params.bufCps ∧
    (∃ c ∈ (withText small [0x110000#32]).tin.readPrefix 1, 0x110000 ≤ c.toNat) ∧
    (∃ pt, utf8Encode ((withText small (List.replicate 17 0x41#32)).tin.readPrefix 17) = .ok pt ∧
      small.params.bufCps < 4 * ((8 + pt.length + 2) / 3)) ∧
    ∃ pt, utf8Encode ((withText small (List.replicate 16 0x41#32)).tin.readPrefix 16) = .ok pt ∧
      4 * ((8 + pt.length + 2) / 3) ≤ small.params.bufCps :=
  ⟨rfl, rfl, by decide, by decide, ⟨0x110000#32, by decide, by decide⟩, ⟨_, rfl, by decide⟩, ⟨_, rfl, by decide⟩⟩

/-- A text that is no Base64; one of 7 bytes, one of 8. -/
theorem wit_DecryptResult :
    small.objv = false ∧ ({ small with objv := true } : State).objv = true ∧
    small.params.bufCps < ({ small with tinlen := 33#32 } : State).tinlen.toNat ∧
    ({ small with tinlen := 32#32 } : State).tinlen.toNat ≤ small.params.bufCps ∧
    (∀ raw, b64Decode ((withText small [0x41#32]).tin.readPrefix 1) ≠ .ok raw) ∧
    (∃ raw, b64Decode ((withText small (ascii "AAAAAAAAAA==")).tin.readPrefix 12) = .ok raw ∧ raw.length < 8) ∧
    ∃ raw, b64Decode ((withText small (ascii "AAAAAAAAAAA=")).tin.readPrefix 12) = .ok raw ∧ 8 ≤ raw.length := by
  refine ⟨rfl, rfl, by decide, by decide, fun out h => ?_, ⟨[0, 0, 0, 0, 0, 0, 0], by decide +kernel, by decide⟩,
    ⟨[0, 0, 0, 0, 0, 0, 0, 0], by decide +kernel, by decide⟩⟩
  rw [show b64Decode ((withText small [0x41#32]).tin.readPrefix 1) = .error .decodeFailure by decide] at h
  cases h

/-- The keystream of a null schedule: decrypted bytes that are UTF-8 and bytes that are not, the last clauses of
`DecryptResult`, are shown on the object of "password" by `test_decrypt` and `test_decrypt_faults`. -/
theorem wit_DecryptResult_utf8 :
    (∀ out, utf8Decode [0xFF#8] ≠ .ok out) ∧ ∃ out, utf8Decode [0x68#8] = .ok out := by
  refine ⟨fun out h => ?_, ⟨_, rfl⟩⟩
  rw [show utf8Decode [0xFF#8] = .error .invalidUtf8Sequence by decide] at h
  cases h

theorem wit_AccessorsResult : State.reset.objv = false ∧ objectState.objv = true := ⟨rfl, rfl⟩

theorem wit_KeyExpansionRecurrence : (4 ∈ [4, 6, 8] ∧ 6 ∈ [4, 6, 8] ∧ 8 ∈ [4, 6, 8]) ∧
    (List.replicate 24 0#8).length = 4 * 6 ∧ (3 < 4 ∧ 4 ≤ 4 ∧ 43 < 4 * (4 + 6 + 1)) ∧
    (59 < 4 * (8 + 6 + 1) ∧ 12 % 8 = 4 ∧ 56 % 8 = 0) := by decide

/-- The first and the last column, round key and byte. -/
theorem wit_LinearLayersAreExplicit : (0 < 4 ∧ 3 < 4) ∧ (0 ≤ 14 ∧ 14 ≤ 14) ∧ 0 < 16 ∧ 15 < 16 := by decide

theorem wit_SubstitutionTablesAgree : (0x01#8 : Byte) ≠ 0x00#8 ∧ 0 < 16 ∧ 15 < 16 := by decide

theorem wit_InverseCipherUndoesCipher : (cipherState []).ksv = true := rfl

/-- The lengths at which the number of blocks changes, and positions in each part of a padded message. -/
theorem wit_Md5PaddingLayout : (List.replicate 55 0#8).length < 2 ^ 29 ∧ (List.replicate 56 0#8).length < 2 ^ 29 ∧
    (([] : List Byte).length < 1 ∧ 1 < (md5Pad []).length - 8) ∧ (0 < 4 ∧ 3 < 4) := by decide

theorem wit_Md5WholeBlocksThenPadding : ([] : List Byte).length % 64 = 0 ∧ (List.replicate 64 0#8).length % 64 = 0 ∧
    (List.replicate 64 0#8).length < 2 ^ 29 := by decide

theorem wit_Md5BlockByBlockEqualsDigest :
    let m : List Byte := List.replicate 55 0x61#8
    let s := withBytes small (md5Pad m)
    let d := withBytes small m
    m.length ≤ 55 ∧ s.bin.readPrefix 64 = md5Pad m ∧ d.binlen.toNat = m.length ∧ d.bin.readPrefix m.length = m ∧
      m.length ≤ d.params.bufBytes := by decide +kernel

theorem wit_CtrXformInPieces : (List.replicate 32 0#8).length % 16 = 0 ∧ ([] : List Byte).length % 16 = 0 := by decide

theorem wit_CtrXformTwiceRestores :
    (withBytes (cipherState []) (List.replicate 17 0x55#8)).params.Legal ∧
    ∃ t, exec .ctrXform (withBytes (cipherState []) (List.replicate 17 0x55#8)) = .next t ∧ t.err = 0x00#8 :=
  ⟨by decide, ⟨_, rfl, by decide +kernel⟩⟩

/-- The edges of the four ranges. -/
theorem wit_Utf8EncodingTable : (0x7F#32).toNat < 0x80 ∧ (0x80 ≤ (0x80#32).toNat ∧ (0x7FF#32).toNat < 0x800) ∧
    (0x800 ≤ (0x800#32).toNat ∧ (0xFFFF#32).toNat < 0x10000) ∧
    (0x10000 ≤ (0x10000#32).toNat ∧ (0x10FFFF#32).toNat < 0x110000) ∧ 0x110000 ≤ (0x110000#32).toNat ∧
    (∃ c ∈ [0x41#32, 0x110000#32], 0x110000 ≤ c.toNat) ∧ ∀ c ∈ [0x10FFFF#32], c.toNat < 0x110000 := by
  refine ⟨by decide, by decide, by decide, by decide, by decide, ⟨0x110000#32, by decide, by decide⟩, fun c h => ?_⟩
  rw [List.mem_singleton.mp h]
  decide

/-- The last code point, and a malformed sequence (R205). -/
theorem wit_Utf8RoundTrip : (∀ c ∈ [0x10FFFF#32], c.toNat < 0x110000) ∧
    utf8Decode [0x80#8] = .error .invalidUtf8Sequence := by
  refine ⟨fun c h => ?_, by decide⟩
  rw [List.mem_singleton.mp h]
  decide

/-- A text that no bytes encode to (R214). -/
theorem wit_Base64RoundTrip : b64Decode (ascii "Zh==") = .error .decodeFailure := by decide

/-- Two passwords that agree in their first 32 bytes. -/
theorem wit_ObjectScheduleFromSeed :
    ∀ i, i < 32 → (List.replicate 33 0x61#8).getD i 0#8 = (List.replicate 32 0x61#8).getD i 0#8 := by decide

theorem wit_AccessorsReturnConstructed :
    (withText small [0x61#32]).params.Legal ∧
    ∃ t, exec .pwConstruct (withText small [0x61#32]) = .next t ∧ t.err = 0x00#8 ∧
      ∃ pb, utf8Encode ((withText small [0x61#32]).tin.readPrefix (withText small [0x61#32]).tinlen.toNat) = .ok pb :=
  ⟨by decide, ⟨_, rfl, by decide +kernel, ⟨[0x61#8], by decide +kernel⟩⟩⟩

theorem wit_DecryptRestoresPlaintext :
    (withText objectState [0x20AC#32]).params.Legal ∧
    ∃ t, exec .pwEncrypt (withText objectState [0x20AC#32]) = .next t ∧ t.err = 0x00#8 :=
  ⟨by decide, ⟨_, rfl, by decide +kernel⟩⟩

/-- The lengths at which the number of blocks changes, and positions in each part of a padded message. -/
theorem wit_AccessorsReturnConstructed_sha1 : (List.replicate 55 0#8).length < 2 ^ 61 ∧
    (List.replicate 56 0#8).length < 2 ^ 61 ∧ (([] : List Byte).length < 1 ∧ 1 < (sha1Pad []).length - 8) ∧
    0 < 8 ∧ 7 < 8 := by decide +kernel

/-- A nonce of exactly 8 bytes, and more. -/
theorem wit_NonceDecidesCiphertext_block : 8 ≤ (makeNonce ⟨0#32, 0#10⟩).length ∧ 8 ≤ (List.replicate 9 0x01#8).length := by
  decide

/-- The nonces of R237. -/
theorem test_nonce : makeNonce ⟨1700000000#32, 123#10⟩ = [0x65, 0x53, 0xf1, 0x00, 0x7b, 0x7b, 0x7b, 0x7b] ∧
    (makeNonce ⟨0#32, 999#10⟩).getD 7 0#8 = 0xE7#8 := by decide

/-- Milliseconds that differ by 768, and a position in both messages. -/
theorem wit_NonceDecidesCiphertext :
    (5#32 : BitVec 32) = 5#32 ∧ (7#10 : BitVec 10).toNat % 256 = (775#10 : BitVec 10).toNat % 256 ∧
    0 < [1#8].length ∧ 0 < [2#8, 3#8].length := by decide

/-! ### Host scripts -/

/-- The offsets a script names, by R62. -/
theorem test_script_offsets : wordOffset .cmd 0 = 0x00000#20 ∧ wordOffset .tinlen 0 = 0x00014#20 ∧
    wordOffset .h 2 = 0x00028#20 ∧ wordOffset .tin 5 = 0x40014#20 ∧ wordOffset .tout 1 = 0x80004#20 ∧
    byteOffset .key 31 = 0x0005F#20 ∧ byteOffset .ks 239 = 0x001EF#20 ∧ byteOffset .bout 0 = 0x20000#20 := by decide

/-- A comparison that holds, one that fails, and an illegal word (R97, R272). -/
theorem test_script_compares :
    (runLine small (.rd32 .err 0 (some 0#32))).isSome = true ∧ runLine small (.rd32 .err 0 (some 1#32)) = none ∧
    (runLine small (.cmdRaw 0x00000301#32)).map (fun t => t.err) = some 0x10#8 := by decide

/-- A `time` line is of the next `PW.ENCRYPT`, in place of the pending sample, and of no other (R97): between two
`PW.ENCRYPT`, the first takes the sample pending before, the second the line's; the same where the script is placed as
events. -/
theorem test_script_time :
    let s : State := { small with timeSamples := [⟨1#32, 1#10⟩, ⟨2#32, 2#10⟩] }
    (runScript s [.cmd .pwEncrypt, .time ⟨7#32, 7#10⟩]).map (fun t => t.timeSamples) = some [⟨7#32, 7#10⟩] ∧
    (after (step (s.loadScript [.cmd .pwEncrypt, .time ⟨7#32, 7#10⟩]))).timeSample = ⟨2#32, 2#10⟩ ∧
    (after (step (after (step (s.loadScript [.cmd .pwEncrypt, .time ⟨7#32, 7#10⟩]))))).timeSample = ⟨7#32, 7#10⟩ := by
  decide

/-- A script that runs, and a state with no event pending. -/
theorem wit_ScriptsLoadInputs_time : (∃ t, runScript small [.cmd .pwEncrypt] = some t) ∧ small.events = [] :=
  ⟨⟨_, rfl⟩, rfl⟩

theorem wit_ScriptsLoadInputs : small.params.Legal ∧ small.MemoriesCanonical ∧
    ([] : List Byte).length ≤ small.params.bufBytes ∧ (List.replicate 64 0x41#8).length ≤ small.params.bufBytes ∧
    ([] : List Word).length ≤ small.params.bufCps ∧ (List.replicate 32 0x41#32).length ≤ small.params.bufCps :=
  ⟨by decide, by unfold State.MemoriesCanonical; decide, by decide, by decide, by decide, by decide⟩

end Sys2Proof.Tests
end

/-! How a command's pseudocode can complete, said once, and the write matrix that follows (O18). -/

namespace Sys2Proof.Machine

variable {i : Instr} {s t u : State}

/-- Every way the pseudocode of a command, begun in `s`, runs to its end: the command, what it had tested, and the state
it assigned (spec 60_exceptions.md R280, R281). -/
inductive Completes (s : State) : Instr → State → Prop
  | nop : Completes s .nop s
  | aesKeyexp {ksz : BitVec 2} (legal : kszLegal ksz = true) :
      Completes s (.aesKeyexp ksz)
        ({ s with ks := padTo 240 (keyExpansion (s.keyOperand (kszNk ksz)) (kszNk ksz)) }.setSchedule
          (roundsOf (kszNk ksz)))
  | aesCipher (valid : s.ksv = true) : Completes s .aesCipher { s with blk := cipher s.blk s.ks s.nr.toNat }
  | aesInvcipher (valid : s.ksv = true) : Completes s .aesInvcipher { s with blk := invCipher s.blk s.ks s.nr.toNat }
  | md5Init : Completes s .md5Init { s with h := md5Iv }
  | md5Block : Completes s .md5Block { s with h := md5Block s.h s.blockInput }
  | md5Digest (short : s.binlen.toNat < 2 ^ 29) (fits : s.binlen.toNat ≤ s.params.bufBytes) :
      Completes s .md5Digest
        ({ s with h := md5Hash (s.bin.readPrefix s.binlen.toNat) }.emitBytes (md5Sum (s.bin.readPrefix s.binlen.toNat)))
  | ctrInc : Completes s .ctrInc { s with ctrblk := ctrInc s.ctrblk }
  | ctrXform (valid : s.ksv = true) (fits : s.binlen.toNat ≤ s.params.bufBytes) :
      Completes s .ctrXform
        ({ s with ctrblk := (ctrXform s.ctrblk (s.bin.readPrefix s.binlen.toNat) s.ks s.nr.toNat).2 }.emitBytes
          (ctrXform s.ctrblk (s.bin.readPrefix s.binlen.toNat) s.ks s.nr.toNat).1)
  | utf8Enc {out : List Byte} (fits : s.tinlen.toNat ≤ s.params.bufCps)
      (encoded : utf8Encode (s.tin.readPrefix s.tinlen.toNat) = .ok out) (room : out.length ≤ s.params.bufBytes) :
      Completes s .utf8Enc (s.emitBytes out)
  | utf8Dec {out : List Word} (fits : s.binlen.toNat ≤ s.params.bufBytes)
      (decoded : utf8Decode (s.bin.readPrefix s.binlen.toNat) = .ok out) (room : out.length ≤ s.params.bufCps) :
      Completes s .utf8Dec (s.emitText out)
  | b64Enc (fits : s.binlen.toNat ≤ s.params.bufBytes) (room : 4 * ((s.binlen.toNat + 2) / 3) ≤ s.params.bufCps) :
      Completes s .b64Enc (s.emitText (b64Encode (s.bin.readPrefix s.binlen.toNat)))
  | b64Dec {out : List Byte} (fits : s.tinlen.toNat ≤ s.params.bufCps)
      (decoded : b64Decode (s.tin.readPrefix s.tinlen.toNat) = .ok out) (room : out.length ≤ s.params.bufBytes) :
      Completes s .b64Dec (s.emitBytes out)
  | hexEnc (fits : s.binlen.toNat ≤ s.params.bufBytes) (room : 2 * s.binlen.toNat ≤ s.params.bufCps) :
      Completes s .hexEnc (s.emitText (hexEncode (s.bin.readPrefix s.binlen.toNat)))
  | pwConstruct {pb : List Byte} (fits : s.tinlen.toNat ≤ s.params.bufCps)
      (encoded : utf8Encode (s.tin.readPrefix s.tinlen.toNat) = .ok pb) :
      Completes s .pwConstruct { s with
        pw := s.pw.writePrefix (s.tin.readPrefix s.tinlen.toNat), pwlen := s.tinlen.toNat,
        digest := padTo 32 (createPasswordDigest s.params.sha1 pb), pks := createKeySchedule pb, objv := true }
  | pwEncrypt {pt : List Byte} (object : s.objv = true) (fits : s.tinlen.toNat ≤ s.params.bufCps)
      (encoded : utf8Encode (s.tin.readPrefix s.tinlen.toNat) = .ok pt)
      (room : 4 * ((8 + pt.length + 2) / 3) ≤ s.params.bufCps) :
      Completes s .pwEncrypt
        (s.takeSample.emitText (b64Encode (sealBytes s.pks (makeNonce s.timeSample) pt)))
  | pwDecrypt {raw : List Byte} {out : List Word} (object : s.objv = true) (fits : s.tinlen.toNat ≤ s.params.bufCps)
      (unpacked : b64Decode (s.tin.readPrefix s.tinlen.toNat) = .ok raw) (nonce : 8 ≤ raw.length)
      (decoded : utf8Decode (ctrXform (nonceBlock raw) (raw.drop 8) s.pks facadeRounds).1 = .ok out) :
      Completes s .pwDecrypt (s.emitText out)
  | pwGetdigest (object : s.objv = true) :
      Completes s .pwGetdigest (s.emitText (s.digest.toList.map (fun b => b.setWidth 32)))
  | pwGetpassword (object : s.objv = true) : Completes s .pwGetpassword (s.emitText s.storedPassword)
  | clrerr : Completes s .clrerr s.clearFault
  | sreset : Completes s .sreset { s.hardReset with cmd := s.cmd }

/-- Pseudocode that ends without a fault ends in one of the ways of `Completes`. -/
theorem completes_of_bodyOf_ok (h : bodyOf i s = .ok t) : Completes s i t := by
  cases i with
  | nop => cases h; exact .nop
  | aesKeyexp ksz =>
    by_cases hk : kszLegal ksz = true
    · rw [bodyOf, if_pos hk] at h; cases h; exact .aesKeyexp hk
    · rw [bodyOf, if_neg hk] at h; cases h
  | aesCipher =>
    obtain ⟨-, e⟩ | ⟨hv, e⟩ := cipherBody_cases s <;> cases e.symm.trans h
    exact .aesCipher hv
  | aesInvcipher =>
    obtain ⟨-, e⟩ | ⟨hv, e⟩ := invCipherBody_cases s <;> cases e.symm.trans h
    exact .aesInvcipher hv
  | md5Init => cases h; exact .md5Init
  | md5Block => cases h; exact .md5Block
  | md5Digest =>
    obtain ⟨-, e⟩ | ⟨-, -, e⟩ | ⟨hs, hl, e⟩ := md5DigestBody_cases s <;> cases e.symm.trans h
    exact .md5Digest hs hl
  | ctrInc => cases h; exact .ctrInc
  | ctrXform =>
    obtain ⟨-, e⟩ | ⟨-, -, e⟩ | ⟨hv, hl, e⟩ := ctrXformBody_cases s <;> cases e.symm.trans h
    exact .ctrXform hv hl
  | utf8Enc =>
    obtain e | e | ⟨out, hl, he, ho, e⟩ := utf8EncBody_cases s <;> cases e.symm.trans h
    exact .utf8Enc hl he ho
  | utf8Dec =>
    obtain e | e | ⟨out, hl, he, ho, e⟩ := utf8DecBody_cases s <;> cases e.symm.trans h
    exact .utf8Dec hl he ho
  | b64Enc =>
    obtain e | ⟨hl, ho, e⟩ := b64EncBody_cases s <;> cases e.symm.trans h
    exact .b64Enc hl ho
  | b64Dec =>
    obtain e | e | ⟨out, hl, he, ho, e⟩ := b64DecBody_cases s <;> cases e.symm.trans h
    exact .b64Dec hl he ho
  | hexEnc =>
    obtain e | ⟨hl, ho, e⟩ := hexEncBody_cases s <;> cases e.symm.trans h
    exact .hexEnc hl ho
  | pwConstruct =>
    obtain e | e | ⟨pb, hl, he, e⟩ := constructBody_cases s <;> cases e.symm.trans h
    exact .pwConstruct hl he
  | pwEncrypt =>
    obtain e | e | e | ⟨pt, hv, hl, he, ho, e⟩ := encryptBody_cases s.timeSample s.takeSample <;>
      cases e.symm.trans h
    exact .pwEncrypt hv hl he ho
  | pwDecrypt =>
    obtain e | e | e | e | ⟨raw, out, hv, hl, hb, hr, hu, e⟩ := decryptBody_cases s <;> cases e.symm.trans h
    exact .pwDecrypt hv hl hb hr hu
  | pwGetdigest =>
    obtain ⟨-, e⟩ | ⟨hv, e⟩ := getDigestBody_cases s <;> cases e.symm.trans h
    exact .pwGetdigest hv
  | pwGetpassword =>
    obtain ⟨-, e⟩ | ⟨hv, e⟩ := getPasswordBody_cases s <;> cases e.symm.trans h
    exact .pwGetpassword hv
  | clrerr => cases h; exact .clrerr
  | sreset => cases h; exact .sreset

/-- A command completes, or it faults and keeps nothing it assigned (60_exceptions.md R280). -/
theorem exec_cases (h : exec i s = .next t) :
    (∃ u, Completes s i u ∧ t = u.complete) ∨ ∃ f, t = (startOf i s).raise f := by
  rw [exec_next_iff] at h
  obtain ⟨u, hb, hc⟩ | ⟨f, -, hc⟩ := conclude_cases (startOf i s) (bodyOf i s)
  · exact .inl ⟨u, completes_of_bodyOf_ok hb, h.trans hc⟩
  · exact .inr ⟨f, h.trans hc⟩

/-! ### The write matrix (10_state.md R47) -/

/-- Nothing changed from `s` to `t` but what the command `i` may write by R47, `ERR` and `ERRF`, and the time sample of
`PW.ENCRYPT`. -/
structure WritesOnly (i : Instr) (s t : State) : Prop where
  bytes : ∀ k j, k ∉ bytesWritten i → t.byteAt k j = s.byteAt k j
  words : ∀ k j, k ∉ wordsWritten i → k ≠ .err → k ≠ .status → t.wordAt k j = s.wordAt k j
  scheduleFlags : writesScheduleFlags i = false → t.ksv = s.ksv ∧ t.nr = s.nr
  object : writesObject i = false → s.SameObject t
  cmd : t.cmd = s.cmd
  params : t.params = s.params
  events : t.events = s.events
  response : t.response = s.response
  noSample : i ≠ .pwEncrypt → t.timeSamples = s.timeSamples ∧ t.samplesTaken = s.samplesTaken
  sample : i = .pwEncrypt → t.timeSamples = s.timeSamples.tail ∧ t.samplesTaken = s.samplesTaken + 1

/-- Each end of a command against each byte array it may not write. -/
theorem Completes.byteAt_eq (h : Completes s i u) {k : ByteArr} (hk : k ∉ bytesWritten i) (j : Nat) :
    u.byteAt k j = s.byteAt k j := by
  cases h <;> cases k <;> simp [bytesWritten, State.byteAt] at hk ⊢

/-- Each end of a command against each word array it may not write; `ERR` and `STATUS` follow the flags. -/
theorem Completes.wordAt_eq (h : Completes s i u) {k : WordArr} (hk : k ∉ wordsWritten i) (he : k ≠ .err)
    (hs : k ≠ .status) (j : Nat) : u.wordAt k j = s.wordAt k j := by
  cases h <;> cases k <;> simp [wordsWritten, State.wordAt] at hk he hs ⊢

theorem Completes.sameObject (h : Completes s i u) (hi : writesObject i = false) : s.SameObject u := by
  cases h <;> simp [writesObject, State.SameObject] at hi ⊢

theorem Completes.writesOnly (h : Completes s i u) : WritesOnly i s u where
  bytes _ j hk := h.byteAt_eq hk j
  words _ j hk he hs := h.wordAt_eq hk he hs j
  scheduleFlags hi := by cases h <;> simp [writesScheduleFlags] at hi ⊢
  object := h.sameObject
  cmd := by cases h <;> rfl
  params := by cases h <;> rfl
  events := by cases h <;> rfl
  response := by cases h <;> rfl
  noSample hi := by cases h <;> simp at hi ⊢
  sample hi := by cases hi; cases h; exact ⟨rfl, rfl⟩

end Sys2Proof.Machine

/-! What the end of a command adds to its pseudocode, and the flags (O17). -/

namespace Sys2Proof.Machine

variable {i : Instr} {s t u : State}

@[simp] theorem byteAt_complete (s : State) (k : ByteArr) (j : Nat) : s.complete.byteAt k j = s.byteAt k j := by
  cases k <;> rfl

@[simp] theorem byteAt_raise (s : State) (f : CmdFault) (k : ByteArr) (j : Nat) :
    (s.raise f).byteAt k j = s.byteAt k j := by
  cases k <;> rfl

theorem wordAt_complete {k : WordArr} (he : k ≠ .err) (s : State) (j : Nat) :
    s.complete.wordAt k j = s.wordAt k j := by
  cases k <;> simp [State.wordAt, State.statusWord] at he ⊢

theorem wordAt_raise {k : WordArr} (he : k ≠ .err) (hs : k ≠ .status) (s : State) (f : CmdFault) (j : Nat) :
    (s.raise f).wordAt k j = s.wordAt k j := by
  cases k <;> simp [State.wordAt] at he hs ⊢

/-- A command that completes writes `ERR` besides (60_exceptions.md R280). -/
theorem WritesOnly.complete (h : WritesOnly i s u) : WritesOnly i s u.complete :=
  ⟨fun k j hk => (byteAt_complete u k j).trans (h.bytes k j hk),
    fun k j hk he hs => (wordAt_complete he u j).trans (h.words k j hk he hs),
    h.scheduleFlags, h.object, h.cmd, h.params, h.events, h.response, h.noSample, h.sample⟩

/-- A fault writes `ERR` and `ERRF` besides (60_exceptions.md R280). -/
theorem WritesOnly.raise (h : WritesOnly i s u) (f : CmdFault) : WritesOnly i s (u.raise f) :=
  ⟨fun k j hk => (byteAt_raise u f k j).trans (h.bytes k j hk),
    fun k j hk he hs => (wordAt_raise he hs u f j).trans (h.words k j hk he hs),
    h.scheduleFlags, h.object, h.cmd, h.params, h.events, h.response, h.noSample, h.sample⟩

theorem startOf_writesOnly (i : Instr) (s : State) : WritesOnly i s (startOf i s) where
  bytes k _ _ := by cases i <;> cases k <;> rfl
  words k _ _ _ _ := by cases i <;> cases k <;> rfl
  scheduleFlags _ := by cases i <;> exact ⟨rfl, rfl⟩
  object _ := by cases i <;> exact ⟨rfl, rfl, rfl, rfl, rfl⟩
  cmd := by cases i <;> rfl
  params := by cases i <;> rfl
  events := by cases i <;> rfl
  response := by cases i <;> rfl
  noSample hi := by cases i <;> simp [startOf] at hi ⊢
  sample hi := by cases hi; exact ⟨rfl, rfl⟩

/-- Every command keeps to its row of the write matrix. -/
theorem exec_writesOnly (h : exec i s = .next t) : WritesOnly i s t := by
  obtain ⟨u, hc, rfl⟩ | ⟨f, rfl⟩ := exec_cases h
  · exact hc.writesOnly.complete
  · exact (startOf_writesOnly i s).raise f

/-- Settles O18, from the ends of the commands' pseudocode. -/
theorem commandsWriteOnlyTheirState : Obligations.CommandsWriteOnlyTheirState := by
  intro i s t h
  have w := exec_writesOnly h
  exact ⟨w.bytes, w.words, w.scheduleFlags, w.object, w.cmd, w.params, w.events, w.response, w.noSample, w.sample⟩

/-! ### Flags (10_state.md R25, R26) -/

theorem toNat_append_eq {m n : Nat} (x : BitVec m) (y : BitVec n) : (x ++ y).toNat = x.toNat * 2 ^ n + y.toNat := by
  rw [BitVec.toNat_append, ← Nat.shiftLeft_add_eq_or_of_lt y.isLt, Nat.shiftLeft_eq]

theorem toNat_statusWord (s : State) :
    s.statusWord.toNat = s.errf.toNat + 2 * s.ksv.toNat + 4 * s.objv.toNat + 16 * s.nr.toNat := by
  simp only [State.statusWord, toNat_append_eq, BitVec.toNat_ofNat, BitVec.toNat_ofBool]
  omega

theorem toNat_errWord (s : State) : s.errWord.toNat = s.err.toNat := by
  rw [State.errWord, toNat_append_eq, BitVec.toNat_zero, Nat.zero_mul, Nat.zero_add]

theorem roundsOf_kszNk (ksz : BitVec 2) : roundsOf (kszNk ksz) = 10 + 2 * ksz.toNat := by
  simp only [roundsOf, kszNk]; omega

@[simp] theorem startOf_ksv (i : Instr) (s : State) : (startOf i s).ksv = s.ksv := by cases i <;> rfl
@[simp] theorem startOf_objv (i : Instr) (s : State) : (startOf i s).objv = s.objv := by cases i <;> rfl
@[simp] theorem startOf_nr (i : Instr) (s : State) : (startOf i s).nr = s.nr := by cases i <;> rfl

/-- Settles O17: a fault sets `ERRF` and keeps the other flags, and each end of a command's pseudocode shows its own. -/
theorem statusFlagsFollowCommands : Obligations.StatusFlagsFollowCommands := by
  refine ⟨fun s => ⟨toNat_statusWord s, toNat_errWord s, rfl, rfl, toNat_statusWord s, toNat_errWord s⟩,
    fun i s t h => ?_⟩
  obtain ⟨u, hc, rfl⟩ | ⟨f, rfl⟩ := exec_cases h
  · simp only [complete_err, if_true]
    cases hc with
    | aesKeyexp => exact ⟨rfl, rfl, rfl, congrArg (BitVec.ofNat 4) (roundsOf_kszNk _)⟩
    | _ => exact ⟨rfl, rfl, rfl, rfl⟩
  · simp [faultCode_ne_zero f]

end Sys2Proof.Machine

/-! Steps, reading back what was written, and reset (O5, O7, O13, O19). -/

namespace Sys2Proof.Machine

variable {i : Instr} {s t u : State}

/-! ### Steps (10_state.md R24, 20_memory.md R70) -/

/-- The write of a word to `CMD` runs, in the state in which `CMD` holds it, its command or the fault of an illegal word
(30_encoding.md R90, R95). -/
theorem runCommand_cases (s : State) (c : Word) :
    (∃ i, decode c = some i ∧ runCommand s c = exec i (s.beginCommand c)) ∨
    (decode c = none ∧ runCommand s c = .next ((s.beginCommand c).raise .illegalCommand)) := by
  cases hd : decode c with
  | some i => exact .inl ⟨i, rfl, runCommand_some hd s⟩
  | none => exact .inr ⟨rfl, runCommand_none hd s⟩

/-- What the write of a word to `CMD` leaves, whatever the word: it stands in `CMD`, the write is answered, and the
parameters and the pending events are as they were. -/
theorem runCommand_next (s : State) (c : Word) :
    ∃ t, runCommand s c = .next t ∧ t.cmd = c ∧ t.response = .written ∧ t.events = s.events ∧ t.params = s.params ∧
      t.ErrIsCode := by
  obtain ⟨i, -, hr⟩ | ⟨-, hr⟩ := runCommand_cases s c
  · have w := exec_writesOnly (exec_eq i (s.beginCommand c))
    refine ⟨_, hr.trans (exec_eq i _), w.cmd, w.response, w.events, w.params, ?_⟩
    obtain ⟨u, -, h⟩ | ⟨f, h⟩ := exec_cases (exec_eq i (s.beginCommand c))
    · rw [h]; exact .inl rfl
    · rw [h]; exact .inr ⟨f, rfl⟩
  · exact ⟨_, hr, rfl, rfl, rfl, rfl, .inr ⟨.illegalCommand, rfl⟩⟩

theorem serve_next (s : State) (e : HostEvent) : ∃ t, serve s e = .next t := by
  cases e with
  | writeWord a v =>
    by_cases ha : a = cmdOffset
    · obtain ⟨t, h, -⟩ := runCommand_next s v
      exact ⟨t, by rw [ha, serve_writeCmd, h]⟩
    · exact ⟨_, serve_writeWord ha s v⟩
  | readByte | readWord | writeByte | hwReset | driveTime => exact ⟨_, rfl⟩

/-- A step is idle, or serves the first event. -/
theorem step_cases (s : State) :
    (s.events = [] ∧ step s = .next s) ∨
    ∃ e rest, s.events = e :: rest ∧ step s = serve { s with events := rest } e := by
  cases h : s.events with
  | nil => exact .inl ⟨rfl, step_idle h⟩
  | cons e rest => exact .inr ⟨e, rest, rfl, step_event h⟩

/-- Settles O7: a command always answers, and a step is idle or serves one event, which always answers. -/
theorem everyCommandWriteEnds : Obligations.EveryCommandWriteEnds := by
  refine ⟨fun i s => ⟨_, exec_eq i s⟩, fun s => ?_, fun s c rest hs => ?_⟩
  · obtain ⟨-, h⟩ | ⟨e, rest, -, h⟩ := step_cases s
    · exact ⟨s, h⟩
    · rw [h]; exact serve_next _ e
  · obtain ⟨t, h, hc, hr, he, -, hf⟩ := runCommand_next { s with events := rest } c
    exact ⟨t, by rw [step_event hs, serve_writeCmd, h], hc, hr, he, hf⟩

/-- Settles O5: the event is served as the decoded command. -/
theorem stepRunsDecodedCommand : Obligations.StepRunsDecodedCommand := by
  intro s c i hd
  have run : ∀ (s : State) (rest : List HostEvent), s.events = .writeWord cmdOffset c :: rest →
      step s = exec i { s with events := rest, cmd := c, response := .written } := by
    intro s rest hs
    rw [step_event hs, serve_writeCmd, runCommand_some hd]
    rfl
  refine ⟨run s, ?_⟩
  have hc : BitVec.ofNat 32 (c.toNat % 2 ^ 32) = c := by
    rw [Nat.mod_eq_of_lt c.isLt, BitVec.ofNat_toNat, BitVec.setWidth_eq]
  exact run (s.withFetchWord 32 c.toNat) s.events (by simp only [State.withFetchWord, State.placeCommand, hc])

/-! ### Reading back what was written (20_memory.md R73) -/

theorem getD_setIfInBounds_same {w n : Nat} (x : Vector (BitVec w) n) {j : Nat} (h : j < n) (v : BitVec w) :
    (x.setIfInBounds j v).toList.getD j 0#w = v := by
  simp [List.getD_eq_getElem?_getD, h]

/-- A byte stored in a writable array reads back from its place. -/
theorem byteAt_putByte_same {p : Params} {a : Offset} {r : MapRow ByteArr} {j : Nat} (hm : s.MemoriesCanonical)
    (hl : locateByte p a = some (r, j)) (hw : r.writable = true) (v : Byte) :
    (s.putByte r.array j v).byteAt r.array j = v := by
  obtain ⟨hr, -, -, -, hj⟩ := locate_some hl
  simp only [byteRows, List.mem_cons, List.not_mem_nil, or_false] at hr
  obtain ⟨hbin, -, -, -, -⟩ := hm
  rcases hr with rfl | rfl | rfl | rfl | rfl | rfl
  · exact getD_setIfInBounds_same _ hj v
  · exact getD_setIfInBounds_same _ hj v
  · exact getD_setIfInBounds_same _ hj v
  · cases hw
  · exact (Memory.read_write hbin j v j).trans (if_pos rfl)
  · cases hw

/-- A word stored in a writable array reads back from its place. -/
theorem wordAt_putWord_same {p : Params} {a : Offset} {r : MapRow WordArr} {j : Nat} (hm : s.MemoriesCanonical)
    (hl : locateWord p a = some (r, j)) (hw : r.writable = true) (v : Word) :
    (s.putWord r.array j v).wordAt r.array j = v := by
  obtain ⟨hr, -, -, -, hj⟩ := locate_some hl
  simp only [wordRows, List.mem_cons, List.not_mem_nil, or_false] at hr
  obtain ⟨-, -, htin, -, -⟩ := hm
  rcases hr with rfl | rfl | rfl | rfl | rfl | rfl | rfl | rfl | rfl | rfl
  · rfl
  · cases hw
  · cases hw
  · rfl
  · cases hw
  · rfl
  · cases hw
  · exact getD_setIfInBounds_same _ hj v
  · exact (Memory.read_write htin j v j).trans (if_pos rfl)
  · cases hw

@[simp] theorem byteAt_respond (s : State) (b : BusResponse) (k : ByteArr) (j : Nat) :
    (s.respond b).byteAt k j = s.byteAt k j := by
  cases k <;> rfl

@[simp] theorem wordAt_respond (s : State) (b : BusResponse) (k : WordArr) (j : Nat) :
    (s.respond b).wordAt k j = s.wordAt k j := by
  cases k <;> rfl

@[simp] theorem putByte_params (s : State) (k : ByteArr) (j : Nat) (v : Byte) :
    (s.putByte k j v).params = s.params := by
  cases k <;> rfl

@[simp] theorem putByte_events (s : State) (k : ByteArr) (j : Nat) (v : Byte) :
    (s.putByte k j v).events = s.events := by
  cases k <;> rfl

@[simp] theorem putWord_params (s : State) (k : WordArr) (j : Nat) (v : Word) :
    (s.putWord k j v).params = s.params := by
  cases k <;> rfl

@[simp] theorem putWord_events (s : State) (k : WordArr) (j : Nat) (v : Word) :
    (s.putWord k j v).events = s.events := by
  cases k <;> rfl

/-- `CMD` stands alone at its offset (R62). -/
theorem locateWord_cmdOffset (p : Params) : locateWord p cmdOffset = some (⟨.cmd, 0, 1, true⟩, 0) := rfl

/-- A step that reads a byte answers it. -/
theorem step_readByte {a : Offset} {rest : List HostEvent} {r : MapRow ByteArr} {j : Nat}
    (hs : s.events = .readByte a :: rest) (hl : locateByte s.params a = some (r, j)) :
    ∃ t, step s = .next t ∧ t.response = .byte (s.byteAt r.array j) := by
  refine ⟨_, (step_event hs).trans (congrArg _ (hostReadByte_some (s := { s with events := rest }) hl)), ?_⟩
  rw [respond_response]
  cases r.array <;> rfl

/-- A step that reads a word answers it. -/
theorem step_readWord {a : Offset} {rest : List HostEvent} {r : MapRow WordArr} {j : Nat}
    (hs : s.events = .readWord a :: rest) (hl : locateWord s.params a = some (r, j)) :
    ∃ t, step s = .next t ∧ t.response = .word (s.wordAt r.array j) := by
  refine ⟨_, (step_event hs).trans (congrArg _ (hostReadWord_some (s := { s with events := rest }) hl)), ?_⟩
  rw [respond_response]
  cases r.array <;> rfl

/-- A step that writes a word to a writable location leaves it there, takes the event and keeps the parameters; `CMD` is
such a location, whatever its command does. -/
theorem step_writeWord {a : Offset} {v : Word} {rest : List HostEvent} {r : MapRow WordArr} {j : Nat}
    (hm : s.MemoriesCanonical) (hs : s.events = .writeWord a v :: rest) (hl : locateWord s.params a = some (r, j))
    (hw : r.writable = true) :
    ∃ t, step s = .next t ∧ t.events = rest ∧ t.params = s.params ∧ t.wordAt r.array j = v := by
  by_cases ha : a = cmdOffset
  · subst ha
    obtain ⟨rfl, rfl⟩ := Prod.mk.inj (Option.some.inj ((locateWord_cmdOffset s.params).symm.trans hl))
    obtain ⟨t, h, hc, -, he, hp, -⟩ := runCommand_next { s with events := rest } v
    exact ⟨t, by rw [step_event hs, serve_writeCmd, h], he, hp, hc⟩
  · refine ⟨_, by rw [step_event hs, serve_writeWord ha, hostWriteWord_some (s := { s with events := rest }) hl hw],
      ?_, ?_, ?_⟩
    · simp
    · simp
    · rw [wordAt_respond]
      exact wordAt_putWord_same (s := { s with events := rest }) hm hl hw v

/-- A step that writes a byte to a writable location leaves it there, takes the event and keeps the parameters. -/
theorem step_writeByte {a : Offset} {v : Byte} {rest : List HostEvent} {r : MapRow ByteArr} {j : Nat}
    (hm : s.MemoriesCanonical) (hs : s.events = .writeByte a v :: rest) (hl : locateByte s.params a = some (r, j))
    (hw : r.writable = true) :
    ∃ t, step s = .next t ∧ t.events = rest ∧ t.params = s.params ∧ t.byteAt r.array j = v := by
  refine ⟨_, by rw [step_event hs, serve_writeByte, hostWriteByte_some (s := { s with events := rest }) hl hw],
    ?_, ?_, ?_⟩
  · simp
  · simp
  · rw [byteAt_respond]
    exact byteAt_putByte_same (s := { s with events := rest }) hm hl hw v

/-- Settles O13: the write leaves the value, and the read answers it. -/
theorem readReturnsLastWrite : Obligations.ReadReturnsLastWrite := by
  intro s a rest hm
  refine ⟨fun v r j hs hl hw => ?_, fun v r j hs hl hw => ?_⟩
  · obtain ⟨t, ht, he, hp, hv⟩ := step_writeByte hm hs hl hw
    obtain ⟨u, hu, hr⟩ := step_readByte he (hp ▸ hl)
    exact ⟨t, u, ht, hu, hv ▸ hr⟩
  · obtain ⟨t, ht, he, hp, hv⟩ := step_writeWord hm hs hl hw
    obtain ⟨u, hu, hr⟩ := step_readWord he (hp ▸ hl)
    exact ⟨t, u, ht, hu, hv ▸ hr⟩

/-! ### Reset (10_state.md R45) -/

theorem getD_replicate_zero (w n j : Nat) : (Vector.replicate n 0#w).toList.getD j 0#w = 0#w := by
  rw [Vector.toList_replicate, List.getD_eq_getElem?_getD, List.getElem?_getD_replicate_default_eq]

/-- Settles O19, location by location. -/
theorem resetStateIsZero : Obligations.ResetStateIsZero := by
  refine ⟨fun k j => ?_, fun k j => ?_, rfl, rfl, rfl, rfl, rfl, fun _ => rfl, rfl, fun b hb => ?_, fun b hb => ?_⟩
  · cases k with
    | key | blk | ctrblk | ks => exact getD_replicate_zero ..
    | bin | bout => rfl
  · cases k with
    | h => exact getD_replicate_zero ..
    | cmd | status | err | binlen | boutlen | tinlen | toutlen | tin | tout => rfl
  · exact Vector.eq_of_mem_replicate (Vector.mem_toList_iff.mp hb)
  · exact Vector.eq_of_mem_replicate (Vector.mem_toList_iff.mp hb)

end Sys2Proof.Machine

/-! Isolation of the Encryption Object and of the raw commands' state (O23, O24). -/

namespace Sys2Proof.Machine

variable {i : Instr} {s t u : State}

/-! ### Isolation (10_state.md R38, R47; 46_facade.md, opening) -/

/-- An update of the state that the end of a command does not touch: it commutes with completing and with a fault. -/
structure IsFrame (f : State → State) : Prop where
  complete : ∀ s, (f s).complete = f s.complete
  raise : ∀ s e, (f s).raise e = f (s.raise e)

theorem IsFrame.conclude {f : State → State} (hf : IsFrame f) (s : State) (r : Except CmdFault State) :
    (f s).conclude (f <$> r) = f (s.conclude r) := by
  cases r with
  | ok t => exact hf.complete t
  | error e => exact hf.raise s e

/-- A command whose start and pseudocode commute with an update commutes with it. -/
theorem IsFrame.exec {f : State → State} (hf : IsFrame f) (hs : startOf i (f s) = f (startOf i s))
    (hb : bodyOf i (f s) = f <$> bodyOf i s) (h : exec i s = .next t) : exec i (f s) = .next (f t) := by
  rw [exec_next_iff] at h ⊢
  rw [hs, hb, hf.conclude, h]

theorem withObject_isFrame (pw : Memory 32) (n : Nat) (digest : Vector Byte 32) (pks : Schedule) :
    IsFrame (·.withObject pw n digest pks) :=
  ⟨fun _ => rfl, fun _ _ => rfl⟩

theorem withRaw_isFrame (r : State) : IsFrame (·.withRaw r) := ⟨fun _ => rfl, fun _ _ => rfl⟩

/-- The pseudocode of a raw command neither reads nor writes the object. -/
theorem bodyOf_withObject (hi : touchesObject i = false) (s : State) (pw : Memory 32) (n : Nat)
    (digest : Vector Byte 32) (pks : Schedule) :
    bodyOf i (s.withObject pw n digest pks) = (·.withObject pw n digest pks) <$> bodyOf i s := by
  cases i with
  | aesKeyexp ksz => simp only [bodyOf]; split <;> rfl
  | aesCipher => simp only [bodyOf, cipherBody, map_bind]; rfl
  | aesInvcipher => simp only [bodyOf, invCipherBody, map_bind]; rfl
  | md5Digest => simp only [bodyOf, md5DigestBody, map_bind]; rfl
  | ctrXform => simp only [bodyOf, ctrXformBody, map_bind]; rfl
  | utf8Enc => simp only [bodyOf, utf8EncBody, map_bind]; rfl
  | utf8Dec => simp only [bodyOf, utf8DecBody, map_bind]; rfl
  | b64Enc => simp only [bodyOf, b64EncBody, map_bind]; rfl
  | b64Dec => simp only [bodyOf, b64DecBody, map_bind]; rfl
  | hexEnc => simp only [bodyOf, hexEncBody, map_bind]; rfl
  | nop | clrerr | md5Init | md5Block | ctrInc => rfl
  | pwConstruct | pwEncrypt | pwDecrypt | pwGetdigest | pwGetpassword | sreset => cases hi

/-- The pseudocode of a façade command neither reads nor writes the state of the raw commands. -/
theorem bodyOf_withRaw (hi : i ∈ [Instr.pwConstruct, .pwEncrypt, .pwDecrypt, .pwGetdigest, .pwGetpassword])
    (s r : State) : bodyOf i (s.withRaw r) = (·.withRaw r) <$> bodyOf i s := by
  simp only [List.mem_cons, List.not_mem_nil, or_false] at hi
  rcases hi with rfl | rfl | rfl | rfl | rfl
  · simp only [bodyOf, constructBody, map_bind]; rfl
  · simp only [bodyOf, encryptBody, map_bind]; rfl
  · simp only [bodyOf, decryptBody, map_bind]; rfl
  · simp only [bodyOf, getDigestBody, map_bind]; rfl
  · simp only [bodyOf, getPasswordBody, map_bind]; rfl

/-- Settles O24: the commands commute with other contents of the raw state, and with the contents they have. -/
theorem facadeIgnoresRawState : Obligations.FacadeIgnoresRawState := by
  intro s r i hi
  have hs : ∀ r, startOf i (s.withRaw r) = (startOf i s).withRaw r := fun r => by cases i <;> rfl
  have commutes : ∀ r, exec i (s.withRaw r) = .next (((startOf i s).conclude (bodyOf i s)).withRaw r) := fun r =>
    (withRaw_isFrame r).exec (hs r) (bodyOf_withRaw hi s r) (exec_eq i s)
  refine ⟨_, exec_eq i s, ?_, commutes r⟩
  exact Host.Outcome.next.inj ((exec_eq i s).symm.trans (commutes s))

/-! ### Bus accesses, case by case (20_memory.md R64 to R67) -/

theorem hostReadByte_cases (s : State) (a : Offset) :
    (locateByte s.params a = none ∧ s.hostReadByte a = s.respond .hostErr) ∨
    ∃ r j, locateByte s.params a = some (r, j) ∧ s.hostReadByte a = s.respond (.byte (s.byteAt r.array j)) := by
  cases hl : locateByte s.params a with
  | none => exact .inl ⟨rfl, hostReadByte_none hl⟩
  | some l => exact .inr ⟨l.1, l.2, rfl, hostReadByte_some hl⟩

theorem hostReadWord_cases (s : State) (a : Offset) :
    (locateWord s.params a = none ∧ s.hostReadWord a = s.respond .hostErr) ∨
    ∃ r j, locateWord s.params a = some (r, j) ∧ s.hostReadWord a = s.respond (.word (s.wordAt r.array j)) := by
  cases hl : locateWord s.params a with
  | none => exact .inl ⟨rfl, hostReadWord_none hl⟩
  | some l => exact .inr ⟨l.1, l.2, rfl, hostReadWord_some hl⟩

/-- An access that is not allowed is answered with `HostErr` (R67). -/
theorem hostWriteByte_refused {a : Offset} (h : ∀ r j, locateByte s.params a = some (r, j) → r.writable = false)
    (v : Byte) : s.hostWriteByte a v = s.respond .hostErr := by
  cases hl : locateByte s.params a with
  | none => exact hostWriteByte_none hl v
  | some l => exact hostWriteByte_readOnly hl (h _ _ hl) v

theorem hostWriteWord_refused {a : Offset} (h : ∀ r j, locateWord s.params a = some (r, j) → r.writable = false)
    (v : Word) : s.hostWriteWord a v = s.respond .hostErr := by
  cases hl : locateWord s.params a with
  | none => exact hostWriteWord_none hl v
  | some l => exact hostWriteWord_readOnly hl (h _ _ hl) v

theorem hostWriteByte_cases (s : State) (a : Offset) (v : Byte) :
    ((∀ r j, locateByte s.params a = some (r, j) → r.writable = false) ∧ s.hostWriteByte a v = s.respond .hostErr) ∨
    ∃ r j, locateByte s.params a = some (r, j) ∧ r.writable = true ∧
      s.hostWriteByte a v = (s.putByte r.array j v).respond .written := by
  by_cases h : ∃ r j, locateByte s.params a = some (r, j) ∧ r.writable = true
  · obtain ⟨r, j, hl, hw⟩ := h
    exact .inr ⟨r, j, hl, hw, hostWriteByte_some hl hw v⟩
  · have hro : ∀ r j, locateByte s.params a = some (r, j) → r.writable = false := fun r j hl =>
      Bool.eq_false_iff.mpr fun hw => h ⟨r, j, hl, hw⟩
    exact .inl ⟨hro, hostWriteByte_refused hro v⟩

theorem hostWriteWord_cases (s : State) (a : Offset) (v : Word) :
    ((∀ r j, locateWord s.params a = some (r, j) → r.writable = false) ∧ s.hostWriteWord a v = s.respond .hostErr) ∨
    ∃ r j, locateWord s.params a = some (r, j) ∧ r.writable = true ∧
      s.hostWriteWord a v = (s.putWord r.array j v).respond .written := by
  by_cases h : ∃ r j, locateWord s.params a = some (r, j) ∧ r.writable = true
  · obtain ⟨r, j, hl, hw⟩ := h
    exact .inr ⟨r, j, hl, hw, hostWriteWord_some hl hw v⟩
  · have hro : ∀ r j, locateWord s.params a = some (r, j) → r.writable = false := fun r j hl =>
      Bool.eq_false_iff.mpr fun hw => h ⟨r, j, hl, hw⟩
    exact .inl ⟨hro, hostWriteWord_refused hro v⟩

/-! ### No access but a write of `CMD`, and no raw command, touches the object -/

theorem sameObject_respond (s : State) (b : BusResponse) : s.SameObject (s.respond b) := ⟨rfl, rfl, rfl, rfl, rfl⟩

theorem sameObject_putByte (s : State) (k : ByteArr) (j : Nat) (v : Byte) : s.SameObject (s.putByte k j v) := by
  cases k <;> exact ⟨rfl, rfl, rfl, rfl, rfl⟩

theorem sameObject_putWord (s : State) (k : WordArr) (j : Nat) (v : Word) : s.SameObject (s.putWord k j v) := by
  cases k <;> exact ⟨rfl, rfl, rfl, rfl, rfl⟩

theorem serve_sameObject {e : HostEvent} (hc : ∀ c, e ≠ .writeWord cmdOffset c) (hr : e ≠ .hwReset)
    (h : serve s e = .next t) : s.SameObject t := by
  cases e with
  | readByte a =>
    cases h
    obtain ⟨-, h⟩ | ⟨r, j, -, h⟩ := hostReadByte_cases s a <;> exact h ▸ sameObject_respond s _
  | readWord a =>
    cases h
    obtain ⟨-, h⟩ | ⟨r, j, -, h⟩ := hostReadWord_cases s a <;> exact h ▸ sameObject_respond s _
  | writeByte a v =>
    cases h
    obtain ⟨-, h⟩ | ⟨r, j, -, -, h⟩ := hostWriteByte_cases s a v
    · exact h ▸ sameObject_respond s _
    · exact h ▸ sameObject_putByte s r.array j v
  | writeWord a v =>
    rw [serve_writeWord fun ha => hc v (ha ▸ rfl)] at h
    cases h
    obtain ⟨-, h⟩ | ⟨r, j, -, -, h⟩ := hostWriteWord_cases s a v
    · exact h ▸ sameObject_respond s _
    · exact h ▸ sameObject_putWord s r.array j v
  | driveTime t => cases h; exact ⟨rfl, rfl, rfl, rfl, rfl⟩
  | hwReset => exact absurd rfl hr

section WithObject

variable (s : State) (pw : Memory 32) (n : Nat) (digest : Vector Byte 32) (pks : Schedule)

theorem byteAt_withObject (k : ByteArr) (j : Nat) : (s.withObject pw n digest pks).byteAt k j = s.byteAt k j := by
  cases k <;> rfl

theorem wordAt_withObject (k : WordArr) (j : Nat) : (s.withObject pw n digest pks).wordAt k j = s.wordAt k j := by
  cases k <;> rfl

theorem putByte_withObject (k : ByteArr) (j : Nat) (v : Byte) :
    (s.withObject pw n digest pks).putByte k j v = (s.putByte k j v).withObject pw n digest pks := by
  cases k <;> rfl

theorem putWord_withObject (k : WordArr) (j : Nat) (v : Word) :
    (s.withObject pw n digest pks).putWord k j v = (s.putWord k j v).withObject pw n digest pks := by
  cases k <;> rfl

theorem hostReadByte_withObject (a : Offset) :
    (s.withObject pw n digest pks).hostReadByte a = (s.hostReadByte a).withObject pw n digest pks := by
  obtain ⟨hl, h⟩ | ⟨r, j, hl, h⟩ := hostReadByte_cases s a
  · rw [h, hostReadByte_none (s := s.withObject pw n digest pks) hl]; rfl
  · rw [h, hostReadByte_some (s := s.withObject pw n digest pks) hl, byteAt_withObject]; rfl

theorem hostReadWord_withObject (a : Offset) :
    (s.withObject pw n digest pks).hostReadWord a = (s.hostReadWord a).withObject pw n digest pks := by
  obtain ⟨hl, h⟩ | ⟨r, j, hl, h⟩ := hostReadWord_cases s a
  · rw [h, hostReadWord_none (s := s.withObject pw n digest pks) hl]; rfl
  · rw [h, hostReadWord_some (s := s.withObject pw n digest pks) hl, wordAt_withObject]; rfl

theorem hostWriteByte_withObject (a : Offset) (v : Byte) :
    (s.withObject pw n digest pks).hostWriteByte a v = (s.hostWriteByte a v).withObject pw n digest pks := by
  obtain ⟨hro, h⟩ | ⟨r, j, hl, hw, h⟩ := hostWriteByte_cases s a v
  · rw [h, hostWriteByte_refused (s := s.withObject pw n digest pks) hro]; rfl
  · rw [h, hostWriteByte_some (s := s.withObject pw n digest pks) hl hw, putByte_withObject]; rfl

theorem hostWriteWord_withObject (a : Offset) (v : Word) :
    (s.withObject pw n digest pks).hostWriteWord a v = (s.hostWriteWord a v).withObject pw n digest pks := by
  obtain ⟨hro, h⟩ | ⟨r, j, hl, hw, h⟩ := hostWriteWord_cases s a v
  · rw [h, hostWriteWord_refused (s := s.withObject pw n digest pks) hro]; rfl
  · rw [h, hostWriteWord_some (s := s.withObject pw n digest pks) hl hw, putWord_withObject]; rfl

theorem serve_withObject {s : State} {e : HostEvent} (hc : ∀ c, e ≠ .writeWord cmdOffset c) (hr : e ≠ .hwReset)
    (h : serve s e = .next t) :
    serve (s.withObject pw n digest pks) e = .next (t.withObject pw n digest pks) := by
  cases e with
  | readByte a => cases h; exact congrArg _ (hostReadByte_withObject s pw n digest pks a)
  | readWord a => cases h; exact congrArg _ (hostReadWord_withObject s pw n digest pks a)
  | writeByte a v => cases h; exact congrArg _ (hostWriteByte_withObject s pw n digest pks a v)
  | writeWord a v =>
    have ha : a ≠ cmdOffset := fun ha => hc v (ha ▸ rfl)
    rw [serve_writeWord ha] at h ⊢
    cases h
    exact congrArg _ (hostWriteWord_withObject s pw n digest pks a v)
  | driveTime t => cases h; rfl
  | hwReset => exact absurd rfl hr

end WithObject

theorem writesObject_of_touchesObject (hi : touchesObject i = false) : writesObject i = false := by
  cases i <;> simp [touchesObject, writesObject] at hi ⊢

/-- Settles O23: accesses and raw commands keep the object and commute with any other. -/
theorem objectIsIsolated : Obligations.ObjectIsIsolated := by
  refine fun s pw n digest pks => ⟨fun e hc hr => ?_, fun i hi => ?_⟩
  · obtain ⟨t, h⟩ := serve_next s e
    exact ⟨t, h, serve_sameObject hc hr h, serve_withObject pw n digest pks hc hr h⟩
  · have hs : startOf i (s.withObject pw n digest pks) = (startOf i s).withObject pw n digest pks := by
      cases i <;> rfl
    exact ⟨_, exec_eq i s, (exec_writesOnly (exec_eq i s)).object (writesObject_of_touchesObject hi),
      (withObject_isFrame pw n digest pks).exec hs (bodyOf_withObject hi s pw n digest pks) (exec_eq i s)⟩

end Sys2Proof.Machine

/-! How much the codecs and engines put out, and of what kind: what the invariant asks of their outputs. -/

namespace Sys2Proof.Machine

/-! ### What the codecs give, and how much (45_codecs.md R201, R204, R211, R213, R218) -/

/-- What a bind of two computations gives is given by the second. -/
theorem bind_ok {α β : Type} {x : Except CmdFault α} {g : α → Except CmdFault β} {b : β} (h : (x >>= g) = .ok b) :
    ∃ a, x = .ok a ∧ g a = .ok b := by
  cases x with
  | error e => cases h
  | ok a => exact ⟨a, rfl, h⟩

/-- A text all of whose elements are code points (10_state.md R37). -/
def IsText (t : List Word) : Prop := ∀ c ∈ t, c < 0x110000#32

theorem isText_append {t u : List Word} (ht : IsText t) (hu : IsText u) : IsText (t ++ u) := fun c hc =>
  (List.mem_append.mp hc).elim (ht c) (hu c)

/-- Every element read back from a text is a code point, also beyond its end. -/
theorem IsText.getD {t : List Word} (ht : IsText t) (j : Nat) : t.getD j 0#32 < 0x110000#32 := by
  by_cases hj : j < t.length
  · rw [List.getD_eq_getElem _ _ hj]; exact ht _ (List.getElem_mem hj)
  · rw [List.getD_eq_default _ _ (by omega)]; decide

theorem lt_of_utf8EncOne_ok {c : Word} {b : List Byte} (h : utf8EncOne c = .ok b) : c < 0x110000#32 := by
  by_contra hc
  rw [utf8EncOne, if_neg (by bv_omega), if_neg (by bv_omega), if_neg (by bv_omega), if_neg hc] at h
  cases h

theorem isText_of_utf8Encode_ok {t : List Word} {b : List Byte} (h : utf8Encode t = .ok b) : IsText t := by
  induction t generalizing b with
  | nil => exact nofun
  | cons c t ih =>
    obtain ⟨x, hx, h⟩ := bind_ok h
    obtain ⟨xs, hxs, -⟩ := bind_ok h
    exact List.forall_mem_cons.mpr ⟨lt_of_utf8EncOne_ok hx, ih hxs⟩

theorem length_of_utf8Continue {k : Nat} {c d : Word} {b rest : List Byte} (h : utf8Continue k c b = some (d, rest)) :
    rest.length ≤ b.length := by
  induction k generalizing c b with
  | zero => cases h; exact le_rfl
  | succ k ih =>
    cases b with
    | nil => cases h
    | cons y b =>
      rw [utf8Continue] at h
      split at h
      · cases h
      · exact (ih h).trans (Nat.le_succ _)

theorem utf8DecOne_some {x : Byte} {b rest : List Byte} {d : Word} (h : utf8DecOne x b = some (d, rest)) :
    d < 0x110000#32 ∧ rest.length ≤ b.length := by
  unfold utf8DecOne at h
  split at h
  · cases h
  · split at h
    · cases h
    · rename_i hc
      split at h
      · cases h
      · rename_i hd
        cases h
        exact ⟨by bv_omega, length_of_utf8Continue hc⟩

theorem utf8DecLoop_ok {n : Nat} {b : List Byte} {t : List Word} (h : utf8DecLoop n b = .ok t) :
    IsText t ∧ t.length ≤ b.length := by
  induction n generalizing b t with
  | zero =>
    cases b with
    | nil => cases h; exact ⟨nofun, le_rfl⟩
    | cons => cases h
  | succ n ih =>
    cases b with
    | nil => cases h; exact ⟨nofun, le_rfl⟩
    | cons x b =>
      rw [utf8DecLoop] at h
      split at h
      · cases h
      · rename_i c rest hc
        obtain ⟨t', ht', h⟩ := bind_ok h
        cases h
        obtain ⟨htext, hlen⟩ := ih ht'
        obtain ⟨hcp, hrest⟩ := utf8DecOne_some hc
        exact ⟨List.forall_mem_cons.mpr ⟨hcp, htext⟩, Nat.succ_le_succ (hlen.trans hrest)⟩

/-- A decoded text is code points, at most one for each byte. -/
theorem utf8Decode_ok {b : List Byte} {t : List Word} (h : utf8Decode b = .ok t) : IsText t ∧ t.length ≤ b.length :=
  utf8DecLoop_ok h

theorem b64Char_lt (v : BitVec 6) : b64Char v < 0x110000#32 := by
  revert v; decide

theorem isText_b64Quad (v : BitVec 24) : IsText (b64Quad v) := by
  simp [IsText, b64Quad, b64Char_lt]

theorem isText_take {t : List Word} (ht : IsText t) (n : Nat) : IsText (t.take n) := fun c hc =>
  ht c (List.mem_of_mem_take hc)

theorem isText_b64Pads (n : Nat) : IsText (List.replicate n b64Pad) := fun c hc => by
  rw [List.eq_of_mem_replicate hc]; decide

theorem isText_b64Encode (b : List Byte) : IsText (b64Encode b) := by
  induction b using b64Encode.induct with
  | case1 => exact nofun
  | case2 x => exact isText_append (isText_take (isText_b64Quad _) 2) (isText_b64Pads 2)
  | case3 x y => exact isText_append (isText_take (isText_b64Quad _) 3) (isText_b64Pads 1)
  | case4 x y z b ih => exact isText_append (isText_b64Quad _) ih

theorem length_b64Encode (b : List Byte) : (b64Encode b).length = 4 * ((b.length + 2) / 3) := by
  induction b using b64Encode.induct with
  | case1 | case2 | case3 => simp [b64Encode, b64Quad]
  | case4 x y z b ih => simp only [b64Encode, b64Quad, List.length_append, List.length_cons, List.length_nil, ih]; omega

theorem length_of_b64Keep_ok {pad : Nat} {v : BitVec 24} {b : List Byte} (h : b64Keep pad v = .ok b) :
    b.length ≤ 3 := by
  unfold b64Keep at h
  split at h
  · cases h
  · split at h
    · cases h
    · cases h; exact (List.length_take_le' _ _).trans (by simp [b64Bytes])

theorem length_of_b64DecGroup_ok {q0 q1 q2 q3 : Word} {b : List Byte} (h : b64DecGroup q0 q1 q2 q3 = .ok b) :
    b.length ≤ 3 := by
  obtain ⟨_, -, h⟩ := bind_ok h
  obtain ⟨_, -, h⟩ := bind_ok h
  obtain ⟨_, -, h⟩ := bind_ok h
  obtain ⟨_, -, h⟩ := bind_ok h
  exact length_of_b64Keep_ok h

theorem length_of_b64DecGroups_ok {t : List Word} {b : List Byte} (h : b64DecGroups t = .ok b) :
    b.length ≤ t.length := by
  induction t using b64DecGroups.induct generalizing b with
  | case1 => cases h; exact le_rfl
  | case2 q0 q1 q2 q3 t hp => rw [b64DecGroups, if_pos hp] at h; cases h
  | case3 q0 q1 q2 q3 t hp ih =>
    rw [b64DecGroups, if_neg hp] at h
    obtain ⟨x, hx, h⟩ := bind_ok h
    obtain ⟨xs, hxs, h⟩ := bind_ok h
    cases h
    have := length_of_b64DecGroup_ok hx
    have := ih hxs
    simp only [List.length_append, List.length_cons]
    omega
  | case4 | case5 | case6 => cases h

/-- No more bytes than characters. -/
theorem length_of_b64Decode_ok {t : List Word} {b : List Byte} (h : b64Decode t = .ok b) : b.length ≤ t.length := by
  unfold b64Decode at h
  split at h
  · cases h
  · exact length_of_b64DecGroups_ok h

theorem hexChar_lt (v : BitVec 4) : hexChar v < 0x110000#32 := by
  revert v; decide

theorem isHexByte_hexChar (v : BitVec 4) : isHexByte ((hexChar v).setWidth 8) := by
  unfold isHexByte; revert v; decide

theorem mem_hexEncode {b : List Byte} {c : Word} (h : c ∈ hexEncode b) : ∃ v, c = hexChar v := by
  obtain ⟨x, -, hc⟩ := List.mem_flatMap.mp h
  simp only [List.mem_cons, List.not_mem_nil, or_false] at hc
  exact hc.elim (fun h => ⟨_, h⟩) (fun h => ⟨_, h⟩)

theorem isText_hexEncode (b : List Byte) : IsText (hexEncode b) := fun c hc => by
  obtain ⟨v, rfl⟩ := mem_hexEncode hc
  exact hexChar_lt v

@[simp] theorem length_hexEncode (b : List Byte) : (hexEncode b).length = 2 * b.length := by
  simp [hexEncode, List.length_flatMap, Nat.mul_comm]

@[simp] theorem length_hexBytes (b : List Byte) : (hexBytes b).length = 2 * b.length := by
  simp [hexBytes]

theorem isHexByte_of_mem_hexBytes {b : List Byte} {x : Byte} (h : x ∈ hexBytes b) : isHexByte x := by
  obtain ⟨c, hc, rfl⟩ := List.mem_map.mp h
  obtain ⟨v, rfl⟩ := mem_hexEncode hc
  exact isHexByte_hexChar v

/-! ### The engines' outputs (43_md5.md R175, 44_ctr.md R192, 40_aes_key_expansion.md R110, R115) -/

@[simp] theorem length_md5Sum (m : List Byte) : (md5Sum m).length = 16 := rfl

theorem length_ctrBlocks (ks : Schedule) (nr k : Nat) (cb : Block) (m : List Byte) (h : m.length ≤ 16 * k) :
    (ctrBlocks ks nr k cb m).1.length = m.length := by
  induction k generalizing cb m with
  | zero => exact (Nat.le_zero.mp h).symm
  | succ k ih =>
    have hrest := ih (ctrInc cb) (m.drop 16) (by rw [List.length_drop]; omega)
    simp only [ctrBlocks, xorBytes, List.length_append, List.length_zipWith, List.length_take, Vector.length_toList,
      hrest, List.length_drop]
    omega

@[simp] theorem length_ctrXform (cb : Block) (m : List Byte) (ks : Schedule) (nr : Nat) :
    (ctrXform cb m ks nr).1.length = m.length :=
  length_ctrBlocks ks nr _ cb m (by omega)

theorem length_makeNonce (t : TimeSample) : (makeNonce t).length = 8 := rfl

theorem length_sealBytes (pks : Schedule) (t : TimeSample) (pt : List Byte) :
    (sealBytes pks (makeNonce t) pt).length = 8 + pt.length := by
  rw [sealBytes, List.length_append, length_makeNonce, length_ctrXform]

/-- One turn of the key expansion appends one word. -/
theorem keyExpansionStep_append (nk : Nat) (wrc : List KeyWord × Byte) (j : Nat) :
    ∃ w, (keyExpansionStep nk wrc j).1 = wrc.1 ++ [w] := by
  unfold keyExpansionStep
  dsimp only
  split
  · exact ⟨_, rfl⟩
  · split <;> exact ⟨_, rfl⟩

/-- The turns of the key expansion append a word each and keep the words so far. -/
theorem foldl_keyExpansionStep (nk : Nat) (js : List Nat) (wrc : List KeyWord × Byte) :
    ∃ ws, (js.foldl (keyExpansionStep nk) wrc).1 = wrc.1 ++ ws ∧ ws.length = js.length := by
  induction js generalizing wrc with
  | nil => exact ⟨[], (List.append_nil _).symm, rfl⟩
  | cons j js ih =>
    obtain ⟨w, hw⟩ := keyExpansionStep_append nk wrc j
    obtain ⟨ws, hws, hl⟩ := ih (keyExpansionStep nk wrc j)
    exact ⟨w :: ws, by rw [List.foldl_cons, hws, hw, List.append_assoc]; rfl, by simp [hl]⟩

/-- The schedule begins with the words of the key. -/
theorem keyExpansionWords_eq (key : List Byte) (nk : Nat) :
    ∃ ws, keyExpansionWords key nk = (List.range nk).map (keyWord key) ++ ws ∧
      ws.length = 4 * (roundsOf nk + 1) - nk := by
  obtain ⟨ws, hws, hl⟩ := foldl_keyExpansionStep nk (List.range' nk (4 * (roundsOf nk + 1) - nk))
    ((List.range nk).map (keyWord key), 0x01#8)
  exact ⟨ws, hws, by rw [hl, List.length_range']⟩

theorem length_flatMap_keyWords (ws : List KeyWord) : (ws.flatMap (fun w => w.toList)).length = 4 * ws.length := by
  simp [List.length_flatMap, Nat.mul_comm]

/-- A schedule has 16 bytes for each round and 16 more. -/
theorem length_keyExpansion (key : List Byte) (nk : Nat) : (keyExpansion key nk).length = 16 * (roundsOf nk + 1) := by
  obtain ⟨ws, hws, hl⟩ := keyExpansionWords_eq key nk
  rw [keyExpansion, length_flatMap_keyWords, hws, List.length_append, hl, List.length_map, List.length_range]
  simp only [roundsOf]
  omega

theorem getD_append_self {r : List Byte} {n j : Nat} (hr : r.length = n) (hj : j < n) :
    (r ++ r).getD (n + j) 0#8 = (r ++ r).getD j 0#8 := by
  subst hr
  rw [List.getD_append_right _ _ _ _ (Nat.le_add_right _ _), List.getD_append _ _ _ _ hj, Nat.add_sub_cancel_left]

/-- The words of a doubled key come twice. -/
theorem keyWord_append_self {r : List Byte} (hr : r.length = 16) {j : Nat} (hj : j < 4) :
    keyWord (r ++ r) (4 + j) = keyWord (r ++ r) j := by
  have h : ∀ k, k < 4 → (r ++ r).getD (4 * (4 + j) + k) 0#8 = (r ++ r).getD (4 * j + k) 0#8 := fun k hk => by
    rw [show 4 * (4 + j) + k = 16 + (4 * j + k) by omega]
    exact getD_append_self hr (by omega)
  have h0 := h 0 (by omega)
  simp only [Nat.add_zero] at h0
  simp only [keyWord, h0, h 1 (by omega), h 2 (by omega), h 3 (by omega)]

/-- The schedule of a doubled 32-byte key begins with the same 16 bytes twice. -/
theorem keyExpansion_append_self {r : List Byte} (hr : r.length = 16) :
    (keyExpansion (r ++ r) 8).take 16 = ((keyExpansion (r ++ r) 8).drop 16).take 16 := by
  obtain ⟨ws, hws, -⟩ := keyExpansionWords_eq (r ++ r) 8
  have htwice : (List.range 8).map (keyWord (r ++ r)) =
      (List.range 4).map (keyWord (r ++ r)) ++ (List.range 4).map (keyWord (r ++ r)) := by
    rw [show List.range 8 = List.range 4 ++ (List.range 4).map (4 + ·) from rfl, List.map_append, List.map_map]
    exact congrArg _ (List.map_congr_left fun j hj => keyWord_append_self hr (List.mem_range.mp hj))
  have hhalf := length_flatMap_keyWords ((List.range 4).map (keyWord (r ++ r)))
  rw [List.length_map, List.length_range] at hhalf
  rw [keyExpansion, hws, htwice, List.flatMap_append, List.flatMap_append, List.append_assoc,
    List.take_left' hhalf, List.drop_left' hhalf, List.take_left' hhalf]

end Sys2Proof.Machine

/-! The invariant, kept by every update, every command and every step (O21, O22). -/

namespace Sys2Proof.Machine

variable {i : Instr} {s t u : State}

/-! ### The invariant under each update of the state -/

theorem Memory.nil_wf {w : Nat} : Memory.wf ([] : Memory w) := ⟨List.Pairwise.nil, nofun⟩

theorem Memory.read_nil_lt (j : Nat) : Memory.read ([] : Memory 32) j < 0x110000#32 := by
  rw [Memory.read_nil]; decide

theorem Memory.write_within {w : Nat} {m : Memory w} {n j : Nat} (hm : m.Within n) (hj : j < n) (v : BitVec w) :
    (m.write j v).Within n := fun c hc => by
  obtain ⟨rfl, -⟩ | hc := Memory.mem_write hc
  · exact hj
  · exact hm c hc

theorem Memory.writePrefix_within {w : Nat} {m : Memory w} {n : Nat} (hm : m.Within n) {xs : List (BitVec w)}
    (hx : xs.length ≤ n) : (m.writePrefix xs).Within n := fun c hc => by
  obtain ⟨hlt, -⟩ | hc := Memory.mem_writePrefix hc
  · exact hlt.trans_le hx
  · exact hm c hc

/-- A text written at the front of a buffer of text leaves text. -/
theorem Memory.read_writePrefix_lt {m : Memory 32} (hm : ∀ j, m.read j < 0x110000#32) {xs : List Word}
    (hx : IsText xs) (j : Nat) : (m.writePrefix xs).read j < 0x110000#32 := by
  rw [Memory.read_writePrefix]
  split
  · exact hx.getD j
  · exact hm j

theorem toNat_ofNat_le {n c : Nat} (h : n ≤ c) : (BitVec.ofNat 32 n).toNat ≤ c := by
  rw [BitVec.toNat_ofNat]
  exact (Nat.mod_le _ _).trans h

/-- Every reset state under legal parameters meets the invariant (10_state.md R45). -/
theorem hardReset_inv (hl : s.params.Legal) : s.hardReset.Inv where
  legal := hl
  canonical := ⟨Memory.nil_wf, Memory.nil_wf, Memory.nil_wf, Memory.nil_wf, Memory.nil_wf⟩
  within := ⟨nofun, nofun, nofun, nofun, nofun⟩
  lengths := ⟨Nat.zero_le _, Nat.zero_le _, Nat.zero_le _⟩
  rounds := .inl ⟨rfl, rfl⟩
  tail := nofun
  text := ⟨Memory.read_nil_lt, Memory.read_nil_lt⟩
  digestHex := nofun
  errCode := .inl rfl
  sticky h := absurd rfl h
  doubled := nofun

/-- Settles O21: `State.reset` is a reset state under the default parameters. -/
theorem resetMeetsInvariant : Obligations.ResetMeetsInvariant := hardReset_inv (s := State.reset) (by decide)

theorem complete_inv (hs : s.Inv) : s.complete.Inv :=
  { hs with errCode := .inl rfl, sticky := fun h => absurd rfl h }

theorem clearFault_complete_inv (hs : s.Inv) : s.clearFault.complete.Inv :=
  { hs with errCode := .inl rfl, sticky := fun h => absurd rfl h }

theorem raise_inv (hs : s.Inv) (f : CmdFault) : (s.raise f).Inv :=
  { hs with errCode := .inr ⟨f, rfl⟩, sticky := fun _ => rfl }

theorem takeSample_inv (hs : s.Inv) : s.takeSample.Inv := { hs with }

theorem driveTime_inv (hs : s.Inv) (x : TimeSample) : (s.driveTime x).Inv := { hs with }

theorem respond_inv (hs : s.Inv) (b : BusResponse) : (s.respond b).Inv := { hs with }

theorem withBlock_inv (hs : s.Inv) (b : Block) : State.Inv { s with blk := b } := { hs with }

theorem withCounter_inv (hs : s.Inv) (b : Block) : State.Inv { s with ctrblk := b } := { hs with }

theorem withHash_inv (hs : s.Inv) (x : Vector Word 4) : State.Inv { s with h := x } := { hs with }

theorem beginCommand_inv (hs : s.Inv) (c : Word) : (s.beginCommand c).Inv := { hs with }

theorem startOf_inv (hs : s.Inv) (i : Instr) : (startOf i s).Inv := by
  cases i with
  | pwEncrypt => exact takeSample_inv hs
  | _ => exact hs

theorem emitBytes_inv (hs : s.Inv) {out : List Byte} (hl : out.length ≤ s.params.bufBytes) :
    (s.emitBytes out).Inv := by
  obtain ⟨cbin, cbout, ctin, ctout, cpw⟩ := hs.canonical
  obtain ⟨wbin, wbout, wtin, wtout, wpw⟩ := hs.within
  obtain ⟨-, ltout, lpw⟩ := hs.lengths
  exact { hs with
    canonical := ⟨cbin, Memory.writePrefix_wf out cbout, ctin, ctout, cpw⟩
    within := ⟨wbin, Memory.writePrefix_within wbout hl, wtin, wtout, wpw⟩
    lengths := ⟨toNat_ofNat_le hl, ltout, lpw⟩ }

theorem emitText_inv (hs : s.Inv) {out : List Word} (hl : out.length ≤ s.params.bufCps) (ht : IsText out) :
    (s.emitText out).Inv := by
  obtain ⟨cbin, cbout, ctin, ctout, cpw⟩ := hs.canonical
  obtain ⟨wbin, wbout, wtin, wtout, wpw⟩ := hs.within
  obtain ⟨lbout, -, lpw⟩ := hs.lengths
  exact { hs with
    canonical := ⟨cbin, cbout, ctin, Memory.writePrefix_wf out ctout, cpw⟩
    within := ⟨wbin, wbout, wtin, Memory.writePrefix_within wtout hl, wpw⟩
    lengths := ⟨lbout, toNat_ofNat_le hl, lpw⟩
    text := ⟨Memory.read_writePrefix_lt hs.text.1 ht, hs.text.2⟩ }

/-- A write of `KEY` ends the schedule, and with it what the invariant asks of `KS` (R32, R33). -/
theorem putByte_inv (hs : s.Inv) {a : Offset} {r : MapRow ByteArr} {j : Nat}
    (hl : locateByte s.params a = some (r, j)) (hw : r.writable = true) (v : Byte) : (s.putByte r.array j v).Inv := by
  obtain ⟨hr, -, -, -, hj⟩ := locate_some hl
  simp only [byteRows, List.mem_cons, List.not_mem_nil, or_false] at hr
  rcases hr with rfl | rfl | rfl | rfl | rfl | rfl
  · exact { hs with rounds := .inl ⟨rfl, rfl⟩, tail := nofun }
  · exact { hs with }
  · exact { hs with }
  · cases hw
  · obtain ⟨cbin, crest⟩ := hs.canonical
    obtain ⟨wbin, wrest⟩ := hs.within
    exact { hs with
      canonical := ⟨Memory.write_wf j v cbin, crest⟩
      within := ⟨Memory.write_within wbin hj v, wrest⟩ }
  · cases hw

theorem putWord_inv (hs : s.Inv) {a : Offset} {r : MapRow WordArr} {j : Nat}
    (hl : locateWord s.params a = some (r, j)) (hw : r.writable = true) (v : Word) : (s.putWord r.array j v).Inv := by
  obtain ⟨hr, -, -, -, hj⟩ := locate_some hl
  simp only [wordRows, List.mem_cons, List.not_mem_nil, or_false] at hr
  rcases hr with rfl | rfl | rfl | rfl | rfl | rfl | rfl | rfl | rfl | rfl
  · exact { hs with }
  · cases hw
  · cases hw
  · exact { hs with }
  · cases hw
  · exact { hs with }
  · cases hw
  · exact { hs with }
  · obtain ⟨cbin, cbout, ctin, crest⟩ := hs.canonical
    obtain ⟨wbin, wbout, wtin, wrest⟩ := hs.within
    exact { hs with
      canonical := ⟨cbin, cbout, Memory.write_wf j v ctin, crest⟩
      within := ⟨wbin, wbout, Memory.write_within wtin hj v, wrest⟩ }
  · cases hw

/-! ### The invariant under each command -/

theorem legal_rounds {ksz : BitVec 2} (h : kszLegal ksz = true) :
    BitVec.ofNat 4 (roundsOf (kszNk ksz)) = 10#4 ∨ BitVec.ofNat 4 (roundsOf (kszNk ksz)) = 12#4 ∨
      BitVec.ofNat 4 (roundsOf (kszNk ksz)) = 14#4 := by
  revert h; revert ksz; decide

theorem toNat_legal_rounds {ksz : BitVec 2} (h : kszLegal ksz = true) :
    (BitVec.ofNat 4 (roundsOf (kszNk ksz))).toNat = roundsOf (kszNk ksz) := by
  revert h; revert ksz; decide

/-- The schedule of `AES.KEYEXP` fills `KS` up to its rounds and leaves zeros from there on (R33). -/
theorem keyexp_inv (hs : s.Inv) {ksz : BitVec 2} (hk : kszLegal ksz = true) (key : List Byte) :
    ({ s with ks := padTo 240 (keyExpansion key (kszNk ksz)) }.setSchedule (roundsOf (kszNk ksz))).Inv :=
  { hs with
    rounds := .inr ⟨rfl, legal_rounds hk⟩
    tail := fun _ j hj => by
      replace hj : 16 * ((BitVec.ofNat 4 (roundsOf (kszNk ksz))).toNat + 1) ≤ j := hj
      rw [toNat_legal_rounds hk, ← length_keyExpansion key] at hj
      refine (getD_toList_padTo 240 _ j).trans ?_
      rw [List.getD_eq_default _ _ hj, ite_self] }

/-- The digest `PW.CONSTRUCT` stores is hex characters (R41). -/
theorem isHexByte_of_mem_digest {x : Sha1Unit} {pb : List Byte} {b : Byte}
    (hb : b ∈ (padTo 32 (createPasswordDigest x pb)).toList) : isHexByte b := by
  rw [toList_padTo_of_length (by simp [createPasswordDigest])] at hb
  exact isHexByte_of_mem_hexBytes hb

theorem toList_facadeSchedule (key : List Byte) : (facadeSchedule key).toList = keyExpansion key 8 :=
  toList_padTo_of_length (length_keyExpansion key 8)

/-- The schedule `PW.CONSTRUCT` stores is that of a doubled key (46_facade.md R234). -/
theorem createKeySchedule_doubled (pb : List Byte) :
    (createKeySchedule pb).toList.take 16 = ((createKeySchedule pb).toList.drop 16).take 16 := by
  obtain ⟨r, hr⟩ : ∃ r : Block, createKeySchedule pb = facadeSchedule (r.toList ++ r.toList) := ⟨_, rfl⟩
  rw [hr, toList_facadeSchedule]
  exact keyExpansion_append_self Vector.length_toList

theorem construct_inv (hs : s.Inv) (pb : List Byte) (x : Sha1Unit) {text : List Word} {n : Nat}
    (hn : text.length = n) (hl : n ≤ s.params.bufCps) (ht : IsText text) :
    State.Inv { s with
      pw := s.pw.writePrefix text, pwlen := n, digest := padTo 32 (createPasswordDigest x pb),
      pks := createKeySchedule pb, objv := true } := by
  obtain ⟨cbin, cbout, ctin, ctout, cpw⟩ := hs.canonical
  obtain ⟨wbin, wbout, wtin, wtout, wpw⟩ := hs.within
  obtain ⟨lbout, ltout, -⟩ := hs.lengths
  exact { hs with
    canonical := ⟨cbin, cbout, ctin, ctout, Memory.writePrefix_wf text cpw⟩
    within := ⟨wbin, wbout, wtin, wtout, Memory.writePrefix_within wpw (hn.trans_le hl)⟩
    lengths := ⟨lbout, ltout, hl⟩
    text := ⟨hs.text.1, Memory.read_writePrefix_lt hs.text.2 ht⟩
    digestHex := fun _ _ => isHexByte_of_mem_digest
    doubled := fun _ => createKeySchedule_doubled pb }

theorem isText_digest (d : Vector Byte 32) : IsText (d.toList.map (fun b => b.setWidth 32)) := fun c hc => by
  obtain ⟨b, -, rfl⟩ := List.mem_map.mp hc
  bv_omega

theorem isText_storedPassword (hs : s.Inv) : IsText s.storedPassword := fun c hc => by
  obtain ⟨j, -, rfl⟩ := Memory.mem_readPrefix hc
  exact hs.text.2 j

/-- The pseudocode of every command keeps the invariant. -/
theorem Completes.inv (h : Completes s i u) (hs : s.Inv) : u.complete.Inv := by
  obtain ⟨hbytes, -, hcps, -⟩ := hs.legal
  obtain ⟨-, -, hpwlen⟩ := hs.lengths
  cases h with
  | nop => exact complete_inv hs
  | clrerr => exact clearFault_complete_inv hs
  | sreset => exact complete_inv { hardReset_inv hs.legal with }
  | aesKeyexp legal => exact complete_inv (keyexp_inv hs legal _)
  | aesCipher | aesInvcipher => exact complete_inv (withBlock_inv hs _)
  | md5Init | md5Block => exact complete_inv (withHash_inv hs _)
  | ctrInc => exact complete_inv (withCounter_inv hs _)
  | md5Digest =>
    exact complete_inv (emitBytes_inv (withHash_inv hs _) ((length_md5Sum _).trans_le (le_trans (by decide) hbytes)))
  | ctrXform valid fits =>
    exact complete_inv (emitBytes_inv (withCounter_inv hs _)
      ((length_ctrXform ..).trans_le ((Memory.length_readPrefix ..).trans_le fits)))
  | utf8Enc fits encoded room => exact complete_inv (emitBytes_inv hs room)
  | b64Dec fits decoded room => exact complete_inv (emitBytes_inv hs room)
  | utf8Dec fits decoded room => exact complete_inv (emitText_inv hs room (utf8Decode_ok decoded).1)
  | b64Enc fits room =>
    exact complete_inv (emitText_inv hs (by simpa [length_b64Encode] using room) (isText_b64Encode _))
  | hexEnc fits room => exact complete_inv (emitText_inv hs (by simpa using room) (isText_hexEncode _))
  | pwConstruct fits encoded =>
    exact complete_inv (construct_inv hs _ _ (Memory.length_readPrefix ..) fits (isText_of_utf8Encode_ok encoded))
  | pwEncrypt object fits encoded room =>
    exact complete_inv (emitText_inv (takeSample_inv hs)
      (by simpa [length_b64Encode, length_sealBytes] using room) (isText_b64Encode _))
  | pwDecrypt object fits unpacked nonce decoded =>
    obtain ⟨htext, hout⟩ := utf8Decode_ok decoded
    have hraw := length_of_b64Decode_ok unpacked
    rw [length_ctrXform, List.length_drop] at hout
    rw [Memory.length_readPrefix] at hraw
    exact complete_inv (emitText_inv hs (by omega) htext)
  | pwGetdigest => exact complete_inv (emitText_inv hs (by simpa using hcps) (isText_digest _))
  | pwGetpassword =>
    exact complete_inv (emitText_inv hs (by simpa [State.storedPassword] using hpwlen)
      (isText_storedPassword hs))

theorem exec_inv (hs : s.Inv) (h : exec i s = .next t) : t.Inv := by
  obtain ⟨u, hc, rfl⟩ | ⟨f, rfl⟩ := exec_cases h
  · exact hc.inv hs
  · exact raise_inv (startOf_inv hs i) f

theorem runCommand_inv (hs : s.Inv) {c : Word} (h : runCommand s c = .next t) : t.Inv := by
  obtain ⟨i, -, hr⟩ | ⟨-, hr⟩ := runCommand_cases s c
  · exact exec_inv (beginCommand_inv hs c) (hr.symm.trans h)
  · cases hr.symm.trans h
    exact raise_inv (beginCommand_inv hs c) _

theorem serve_inv (hs : s.Inv) {e : HostEvent} (h : serve s e = .next t) : t.Inv := by
  cases e with
  | readByte a =>
    cases h
    obtain ⟨-, h⟩ | ⟨r, j, -, h⟩ := hostReadByte_cases s a <;> exact h ▸ respond_inv hs _
  | readWord a =>
    cases h
    obtain ⟨-, h⟩ | ⟨r, j, -, h⟩ := hostReadWord_cases s a <;> exact h ▸ respond_inv hs _
  | writeByte a v =>
    cases h
    obtain ⟨-, h⟩ | ⟨r, j, hl, hw, h⟩ := hostWriteByte_cases s a v
    · exact h ▸ respond_inv hs _
    · exact h ▸ respond_inv (putByte_inv hs hl hw v) _
  | writeWord a v =>
    by_cases ha : a = cmdOffset
    · exact runCommand_inv hs (by rw [← serve_writeCmd, ← ha, h])
    · rw [serve_writeWord ha] at h
      cases h
      obtain ⟨-, h⟩ | ⟨r, j, hl, hw, h⟩ := hostWriteWord_cases s a v
      · exact h ▸ respond_inv hs _
      · exact h ▸ respond_inv (putWord_inv hs hl hw v) _
  | hwReset => cases h; exact respond_inv (hardReset_inv hs.legal) _
  | driveTime x => cases h; exact driveTime_inv hs x

/-- Settles O22: a step is idle or serves one event, and each event keeps the invariant. -/
theorem stepKeepsInvariant : Obligations.StepKeepsInvariant := by
  intro s t hs h
  obtain ⟨-, hi⟩ | ⟨e, rest, -, he⟩ := step_cases s
  · cases hi.symm.trans h; exact hs
  · exact serve_inv (s := { s with events := rest }) { hs with } (he.symm.trans h)

end Sys2Proof.Machine

/-! The address map and the accesses over it: what each offset leads to, and what a read or a write answers and leaves
alone (O8, O9, O10, O11, O12). -/

namespace Sys2Proof.Machine

variable {s : State} {p : Params}

/-! ### Where an offset leads (20_memory.md R62, R66, R68) -/

section Locate

variable {κ : Type} {rows : List (MapRow κ)} {r r' : MapRow κ} {stride a a' i j : Nat}

/-- The element found stands at the offset asked for. -/
theorem locate_offset (h : locate rows stride a = some (r, i)) : a = r.base + stride * i := by
  obtain ⟨-, hle, hmod, rfl, -⟩ := locate_some h
  rw [Nat.mul_div_cancel' (Nat.dvd_of_mod_eq_zero hmod)]
  omega

/-- Two offsets do not lead to the same element, where each array has one row. -/
theorem locate_index_ne (hn : (rows.map MapRow.array).Nodup) (h : locate rows stride a = some (r, i))
    (h' : locate rows stride a' = some (r', j)) (hne : a' ≠ a) (hk : r'.array = r.array) : r' = r ∧ j ≠ i := by
  obtain ⟨hr, -⟩ := locate_some h
  obtain ⟨hr', -⟩ := locate_some h'
  obtain rfl := List.inj_on_of_nodup_map hn hr' hr hk
  refine ⟨rfl, fun hji => hne ?_⟩
  rw [locate_offset h, locate_offset h', hji]

/-- The offsets a row takes up, from the first to the one after the last, for elements `stride` bytes apart. -/
def extent (stride : Nat) (r : MapRow κ) : Nat × Nat := (r.base, r.base + stride * r.count)

/-- An offset lies in a range of offsets. -/
def Spans (e : Nat × Nat) (a : Nat) : Prop := e.1 ≤ a ∧ a < e.2

/-- Two ranges of offsets have none in common. -/
def Apart (e f : Nat × Nat) : Prop := e.2 ≤ f.1 ∨ f.2 ≤ e.1

theorem Apart.not_spans {e f : Nat × Nat} (h : Apart e f) (he : Spans e a) : ¬ Spans f a := by
  unfold Apart at h
  unfold Spans at *
  omega

/-- A row takes up the offset of each of its elements. -/
theorem spans_element (hs : 0 < stride) (hi : i < r.count) : Spans (extent stride r) (r.base + stride * i) :=
  ⟨Nat.le_add_right _ _, Nat.add_lt_add_left (Nat.mul_lt_mul_of_pos_left hi hs) _⟩

/-- A row whose element is found takes up the offset. -/
theorem spans_of_locate (hs : 0 < stride) (h : locate rows stride a = some (r, i)) : Spans (extent stride r) a := by
  obtain ⟨-, -, -, -, hi⟩ := locate_some h
  exact locate_offset h ▸ spans_element hs hi

theorem locate_eq_none_of_not_spans (hs : 0 < stride) (h : ∀ r ∈ rows, ¬ Spans (extent stride r) a) :
    locate rows stride a = none :=
  Option.eq_none_iff_forall_not_mem.mpr fun ⟨r, _⟩ hl => h r (locate_some hl).1 (spans_of_locate hs hl)

/-- Where the rows stand apart, the row found is the one that takes up the offset. -/
theorem eq_of_locate_of_spans (hs : 0 < stride) (hd : (rows.map (extent stride)).Pairwise Apart) (hr : r ∈ rows)
    (ha : Spans (extent stride r) a) (h : locate rows stride a = some (r', j)) : r' = r := by
  have apart_symm : Std.Symm fun r r' : MapRow κ => Apart (extent stride r) (extent stride r') := ⟨fun _ _ => Or.symm⟩
  by_contra hne
  have apart := (List.pairwise_map.mp hd).forall hr (locate_some h).1 (Ne.symm hne)
  exact apart.not_spans ha (spans_of_locate hs h)

/-- Where the rows stand apart, each element is found at its own offset. -/
theorem locate_element (hs : 0 < stride) (hd : (rows.map (extent stride)).Pairwise Apart) (hr : r ∈ rows)
    (hi : i < r.count) : locate rows stride (r.base + stride * i) = some (r, i) := by
  cases h : locate rows stride (r.base + stride * i) with
  | none =>
    have holds : rowHolds stride (r.base + stride * i) r = true := by simp [rowHolds, hs, hi]
    exact absurd holds (Bool.eq_false_iff.mp (locate_none.mp h r hr))
  | some l =>
    obtain rfl := eq_of_locate_of_spans hs hd hr (spans_element hs hi) h
    rw [Nat.eq_of_mul_eq_mul_left hs (Nat.add_left_cancel (locate_offset h))]

end Locate

/-! ### The rows of the map -/

theorem nodup_array_wordRows (p : Params) : ((wordRows p).map MapRow.array).Nodup := by
  simp [wordRows]

theorem nodup_array_byteRows (p : Params) : ((byteRows p).map MapRow.array).Nodup := by
  simp [byteRows]

/-- No two rows of the map overlap, whatever their widths (R62, R68). -/
theorem extents_apart (hp : p.Legal) :
    ((wordRows p).map (extent 4) ++ (byteRows p).map (extent 1)).Pairwise Apart := by
  obtain ⟨-, hbytes, -, hcps⟩ := hp
  simp only [wordRows, byteRows, extent, Apart, List.map_cons, List.map_nil, List.cons_append, List.nil_append,
    List.pairwise_cons, List.forall_mem_cons, List.not_mem_nil, false_imp_iff, implies_true, and_true, List.Pairwise.nil]
  omega

theorem wordExtents_apart (hp : p.Legal) : ((wordRows p).map (extent 4)).Pairwise Apart :=
  (List.pairwise_append.mp (extents_apart hp)).1

theorem byteExtents_apart (hp : p.Legal) : ((byteRows p).map (extent 1)).Pairwise Apart :=
  (List.pairwise_append.mp (extents_apart hp)).2.1

theorem wordExtent_apart_byteExtent (hp : p.Legal) {r : MapRow WordArr} (hr : r ∈ wordRows p) {r' : MapRow ByteArr}
    (hr' : r' ∈ byteRows p) : Apart (extent 4 r) (extent 1 r') :=
  (List.pairwise_append.mp (extents_apart hp)).2.2 _ (List.mem_map_of_mem hr) _ (List.mem_map_of_mem hr')

/-- Inside the range of a word row no byte location is found. -/
theorem locateByte_none_of_wordRow (hp : p.Legal) {r : MapRow WordArr} (hr : r ∈ wordRows p) {a : Offset}
    (ha : Spans (extent 4 r) a.toNat) : locateByte p a = none :=
  locate_eq_none_of_not_spans Nat.one_pos fun _ hr' => (wordExtent_apart_byteExtent hp hr hr').not_spans ha

/-- Inside the range of a byte row no word location is found. -/
theorem locateWord_none_of_byteRow (hp : p.Legal) {r : MapRow ByteArr} (hr : r ∈ byteRows p) {a : Offset}
    (ha : Spans (extent 1 r) a.toNat) : locateWord p a = none :=
  locate_eq_none_of_not_spans four_pos fun _ hr' hs => (wordExtent_apart_byteExtent hp hr' hr).not_spans hs ha

theorem wordRows_base_aligned (p : Params) : ∀ r ∈ wordRows p, r.base % 4 = 0 := by
  simp only [wordRows, List.forall_mem_cons, List.not_mem_nil, false_imp_iff, implies_true, and_true]

/-- Inside the range of a word row, a word is found at multiples of 4 alone (R66). -/
theorem locateWord_none_of_misaligned (hp : p.Legal) {r : MapRow WordArr} (hr : r ∈ wordRows p) {a : Offset}
    (ha : Spans (extent 4 r) a.toNat) (hmis : a.toNat % 4 ≠ 0) : locateWord p a = none := by
  cases hl : locateWord p a with
  | none => rfl
  | some l =>
    obtain rfl := eq_of_locate_of_spans four_pos (wordExtents_apart hp) hr ha hl
    have hbase := wordRows_base_aligned p l.1 hr
    have hoff : a.toNat = l.1.base + 4 * l.2 := locate_offset hl
    omega

/-- The offsets between the rows of the map and above them (R62). -/
def Unmapped (p : Params) (a : Nat) : Prop :=
  (0x0001C ≤ a ∧ a < 0x00020) ∨ (0x00030 ≤ a ∧ a < 0x00040) ∨
  (0x00080 ≤ a ∧ a < 0x00100) ∨ (0x001F0 ≤ a ∧ a < 0x10000) ∨
  (0x10000 + p.bufBytes ≤ a ∧ a < 0x20000) ∨ (0x20000 + p.bufBytes ≤ a ∧ a < 0x40000) ∨
  (0x40000 + 4 * p.bufCps ≤ a ∧ a < 0x80000) ∨ 0x80000 + 4 * p.bufCps ≤ a

theorem Unmapped.not_spans_wordRow (hp : p.Legal) {a : Nat} (ha : Unmapped p a) :
    ∀ r ∈ wordRows p, ¬ Spans (extent 4 r) a := by
  obtain ⟨-, hbytes, -, hcps⟩ := hp
  unfold Unmapped at ha
  simp only [wordRows, extent, Spans, List.forall_mem_cons, List.not_mem_nil, false_imp_iff, implies_true, and_true]
  omega

theorem Unmapped.not_spans_byteRow (hp : p.Legal) {a : Nat} (ha : Unmapped p a) :
    ∀ r ∈ byteRows p, ¬ Spans (extent 1 r) a := by
  obtain ⟨-, hbytes, -, hcps⟩ := hp
  unfold Unmapped at ha
  simp only [byteRows, extent, Spans, List.forall_mem_cons, List.not_mem_nil, false_imp_iff, implies_true, and_true]
  omega

/-- Settles O12: the rows stand apart, so the one row that takes up an offset is the one found there. -/
theorem addressMapIsExact : Obligations.AddressMapIsExact := by
  intro p hp
  refine ⟨fun r hr i hi a ha => ?_, fun r hr i hi a ha => ?_, fun r hr a hle hlt hmis => ?_, fun a ha => ?_⟩
  · have ha : a.toNat = r.base + 1 * i := by rw [ha, Nat.one_mul]
    exact ⟨by rw [locateByte, ha, locate_element Nat.one_pos (byteExtents_apart hp) hr hi],
      locateWord_none_of_byteRow hp hr (ha ▸ spans_element Nat.one_pos hi)⟩
  · exact ⟨by rw [locateWord, ha, locate_element four_pos (wordExtents_apart hp) hr hi],
      locateByte_none_of_wordRow hp hr (ha ▸ spans_element four_pos hi)⟩
  · exact ⟨locateWord_none_of_misaligned hp hr ⟨hle, hlt⟩ hmis, locateByte_none_of_wordRow hp hr ⟨hle, hlt⟩⟩
  · exact ⟨locate_eq_none_of_not_spans four_pos (Unmapped.not_spans_wordRow hp ha),
      locate_eq_none_of_not_spans Nat.one_pos (Unmapped.not_spans_byteRow hp ha)⟩

/-! ### Reads, and accesses that are refused (20_memory.md R64, R67) -/

theorem getD_toList {α : Type} {n : Nat} (x : Vector α n) {j : Nat} (h : j < n) (d : α) :
    x.toList.getD j d = x[j] := by
  simp [List.getD_eq_getElem?_getD, h]

section Step

variable {a : Offset} {rest : List HostEvent}

theorem byteAt_withEvents (s : State) (rest : List HostEvent) (k : ByteArr) (j : Nat) :
    State.byteAt { s with events := rest } k j = s.byteAt k j := by
  cases k <;> rfl

theorem wordAt_withEvents (s : State) (rest : List HostEvent) (k : WordArr) (j : Nat) :
    State.wordAt { s with events := rest } k j = s.wordAt k j := by
  cases k <;> rfl

theorem step_readByte_some (hs : s.events = .readByte a :: rest) {r : MapRow ByteArr} {i : Nat}
    (hl : locateByte s.params a = some (r, i)) :
    step s = .next { s with events := rest, response := .byte (s.byteAt r.array i) } := by
  rw [step_event hs, serve_readByte, hostReadByte_some (s := { s with events := rest }) hl, byteAt_withEvents]
  rfl

theorem step_readByte_none (hs : s.events = .readByte a :: rest) (hl : locateByte s.params a = none) :
    step s = .next { s with events := rest, response := .hostErr } :=
  (step_event hs).trans (congrArg _ (hostReadByte_none (s := { s with events := rest }) hl))

theorem step_readWord_some (hs : s.events = .readWord a :: rest) {r : MapRow WordArr} {i : Nat}
    (hl : locateWord s.params a = some (r, i)) :
    step s = .next { s with events := rest, response := .word (s.wordAt r.array i) } := by
  rw [step_event hs, serve_readWord, hostReadWord_some (s := { s with events := rest }) hl, wordAt_withEvents]
  rfl

theorem step_readWord_none (hs : s.events = .readWord a :: rest) (hl : locateWord s.params a = none) :
    step s = .next { s with events := rest, response := .hostErr } :=
  (step_event hs).trans (congrArg _ (hostReadWord_none (s := { s with events := rest }) hl))

end Step

/-- Settles O8: each row names its register or buffer, and a read answers the element found or `HostErr`. -/
theorem hostReadAnswersLocation : Obligations.HostReadAnswersLocation := by
  refine ⟨fun s i => ?_, fun s a rest => ⟨fun hs => ?_, fun hs => ?_⟩⟩
  · exact ⟨fun h => getD_toList _ h _, fun h => getD_toList _ h _, fun h => getD_toList _ h _,
      fun h => getD_toList _ h _, rfl, rfl, rfl, rfl, rfl, rfl, rfl, rfl, rfl, fun h => getD_toList _ h _, rfl, rfl⟩
  · exact ⟨fun _ _ => step_readByte_some hs, step_readByte_none hs⟩
  · exact ⟨fun _ _ => step_readWord_some hs, step_readWord_none hs⟩

/-- Settles O11: each kind of access answers `HostErr` where it is not allowed; the offset of `CMD` is none of them, being
writable. -/
theorem refusedAccessChangesNothing : Obligations.RefusedAccessChangesNothing := by
  refine fun s a rest => ⟨step_readByte_none, step_readWord_none, fun v hs hro => ?_, fun v hs hro => ?_⟩
  · exact (step_event hs).trans (congrArg _ (hostWriteByte_refused (s := { s with events := rest }) hro v))
  · have ha : a ≠ cmdOffset := fun h => by
      subst h
      cases hro _ _ (locateWord_cmdOffset s.params)
    rw [step_event hs, serve_writeWord ha, hostWriteWord_refused (s := { s with events := rest }) hro v]
    rfl

/-! ### What a write leaves alone (20_memory.md R65, R69) -/

theorem getD_setIfInBounds_ne {α : Type} {n : Nat} (x : Vector α n) {i j : Nat} (h : j ≠ i) (v d : α) :
    (x.setIfInBounds i v).toList.getD j d = x.toList.getD j d := by
  simp [List.getD_eq_getElem?_getD, Ne.symm h]

/-- A byte stored leaves every other element of every byte array as it was. -/
theorem byteAt_putByte_ne (hm : s.MemoriesCanonical) {k k' : ByteArr} {i j : Nat} (h : k' = k → j ≠ i) (v : Byte) :
    (s.putByte k i v).byteAt k' j = s.byteAt k' j := by
  obtain ⟨hbin, -⟩ := hm
  cases k with
  | key => cases k' with
    | key => exact getD_setIfInBounds_ne _ (h rfl) _ _
    | _ => rfl
  | blk => cases k' with
    | blk => exact getD_setIfInBounds_ne _ (h rfl) _ _
    | _ => rfl
  | ctrblk => cases k' with
    | ctrblk => exact getD_setIfInBounds_ne _ (h rfl) _ _
    | _ => rfl
  | bin => cases k' with
    | bin => exact (Memory.read_write hbin i v j).trans (if_neg (h rfl))
    | _ => rfl
  | ks | bout => rfl

/-- A word stored leaves every other word array as it was. -/
theorem wordAt_putWord_ne_array (s : State) {k k' : WordArr} (h : k' ≠ k) (i j : Nat) (v : Word) :
    (s.putWord k i v).wordAt k' j = s.wordAt k' j := by
  cases k with
  | cmd => cases k' with
    | cmd => exact absurd rfl h
    | _ => rfl
  | binlen => cases k' with
    | binlen => exact absurd rfl h
    | _ => rfl
  | tinlen => cases k' with
    | tinlen => exact absurd rfl h
    | _ => rfl
  | h => cases k' with
    | h => exact absurd rfl h
    | _ => rfl
  | tin => cases k' with
    | tin => exact absurd rfl h
    | _ => rfl
  | status | err | boutlen | toutlen | tout => rfl

/-- A word stored leaves every other element of its own row as it was; a register is a row of one element. -/
theorem wordAt_putWord_ne_index (hm : s.MemoriesCanonical) {r : MapRow WordArr} (hr : r ∈ wordRows p) {i j : Nat}
    (hi : i < r.count) (hj : j < r.count) (hji : j ≠ i) (v : Word) :
    (s.putWord r.array i v).wordAt r.array j = s.wordAt r.array j := by
  obtain ⟨-, -, htin, -⟩ := hm
  have several : 1 < r.count := by omega
  simp only [wordRows, List.mem_cons, List.not_mem_nil, or_false] at hr
  rcases hr with rfl | rfl | rfl | rfl | rfl | rfl | rfl | rfl | rfl | rfl
  · exact absurd several (lt_irrefl 1)
  · rfl
  · rfl
  · exact absurd several (lt_irrefl 1)
  · rfl
  · exact absurd several (lt_irrefl 1)
  · rfl
  · exact getD_setIfInBounds_ne _ hji _ _
  · exact (Memory.read_write htin i v j).trans (if_neg hji)
  · rfl

/-- A byte write leaves the bytes at other offsets as they were. -/
theorem byteAt_putByte_other (hm : s.MemoriesCanonical) {a a' : Offset} {r r' : MapRow ByteArr} {i j : Nat}
    (hl : locateByte p a = some (r, i)) (hl' : locateByte p a' = some (r', j)) (hne : a' ≠ a) (v : Byte) :
    (s.putByte r.array i v).byteAt r'.array j = s.byteAt r'.array j :=
  byteAt_putByte_ne hm
    (fun hk => (locate_index_ne (nodup_array_byteRows p) hl hl' (mt BitVec.eq_of_toNat_eq hne) hk).2) v

/-- A word write leaves the words at other offsets as they were. -/
theorem wordAt_putWord_other (hm : s.MemoriesCanonical) {a a' : Offset} {r r' : MapRow WordArr} {i j : Nat}
    (hl : locateWord p a = some (r, i)) (hl' : locateWord p a' = some (r', j)) (hne : a' ≠ a) (v : Word) :
    (s.putWord r.array i v).wordAt r'.array j = s.wordAt r'.array j := by
  by_cases hk : r'.array = r.array
  · obtain ⟨rfl, hji⟩ := locate_index_ne (nodup_array_wordRows p) hl hl' (mt BitVec.eq_of_toNat_eq hne) hk
    obtain ⟨hr, -, -, -, hi⟩ := locate_some hl
    obtain ⟨-, -, -, -, hj⟩ := locate_some hl'
    exact wordAt_putWord_ne_index hm hr hi hj hji v
  · exact wordAt_putWord_ne_array s hk i j v

/-- A byte write reaches no word location but the flags of `STATUS`. -/
theorem wordAt_putByte (s : State) (k : ByteArr) (i : Nat) (v : Byte) {k' : WordArr} (h : k' ≠ .status) (j : Nat) :
    (s.putByte k i v).wordAt k' j = s.wordAt k' j := by
  cases k' with
  | status => exact absurd rfl h
  | _ => cases k <;> rfl

/-- A word write reaches no byte location. -/
theorem byteAt_putWord (s : State) (k : WordArr) (i : Nat) (v : Word) (k' : ByteArr) (j : Nat) :
    (s.putWord k i v).byteAt k' j = s.byteAt k' j := by
  cases k <;> rfl

/-- A byte write outside `KEY` keeps the flags of the schedule. -/
theorem putByte_schedule_of_ne_key (s : State) {k : ByteArr} (h : k ≠ .key) (i : Nat) (v : Byte) :
    (s.putByte k i v).ksv = s.ksv ∧ (s.putByte k i v).nr = s.nr := by
  cases k with
  | key => exact absurd rfl h
  | _ => exact ⟨rfl, rfl⟩

@[simp] theorem putByte_errf (s : State) (k : ByteArr) (i : Nat) (v : Byte) : (s.putByte k i v).errf = s.errf := by
  cases k <;> rfl

@[simp] theorem putByte_objv (s : State) (k : ByteArr) (i : Nat) (v : Byte) : (s.putByte k i v).objv = s.objv := by
  cases k <;> rfl

@[simp] theorem putByte_timeSamples (s : State) (k : ByteArr) (i : Nat) (v : Byte) :
    (s.putByte k i v).timeSamples = s.timeSamples := by
  cases k <;> rfl

@[simp] theorem putByte_samplesTaken (s : State) (k : ByteArr) (i : Nat) (v : Byte) :
    (s.putByte k i v).samplesTaken = s.samplesTaken := by
  cases k <;> rfl

@[simp] theorem putWord_timeSamples (s : State) (k : WordArr) (i : Nat) (v : Word) :
    (s.putWord k i v).timeSamples = s.timeSamples := by
  cases k <;> rfl

@[simp] theorem putWord_samplesTaken (s : State) (k : WordArr) (i : Nat) (v : Word) :
    (s.putWord k i v).samplesTaken = s.samplesTaken := by
  cases k <;> rfl

/-- Settles O9: the step stores the byte, and a stored byte leaves everything else but the schedule's flags alone. -/
theorem byteWriteChangesOneLocation : Obligations.ByteWriteChangesOneLocation := by
  intro s a v rest r i hm hs hl hw
  have ht : step s = .next ((State.putByte { s with events := rest } r.array i v).respond .written) := by
    rw [step_event hs, serve_writeByte, hostWriteByte_some (s := { s with events := rest }) hl hw]
  refine ⟨_, ht, putByte_events .., rfl, ?_, fun a' r' j hl' hne => ?_, fun k j hk => ?_, putByte_errf ..,
    putByte_objv .., fun hk => ?_, fun hk => putByte_schedule_of_ne_key _ hk i v, sameObject_putByte _ r.array i v,
    putByte_params .., putByte_timeSamples .., putByte_samplesTaken ..⟩
  · rw [byteAt_respond, byteAt_putByte_same (s := { s with events := rest }) hm hl hw]
  · rw [byteAt_respond, byteAt_putByte_other (s := { s with events := rest }) hm hl hl' hne, byteAt_withEvents]
  · rw [wordAt_respond, wordAt_putByte _ _ _ _ hk, wordAt_withEvents]
  · rw [hk]; exact ⟨rfl, rfl⟩

/-- Settles O10: the step stores the word, and a stored word leaves everything else alone. -/
theorem wordWriteChangesOneLocation : Obligations.WordWriteChangesOneLocation := by
  intro s a v rest r i hm hs ha hl hw
  have ht : step s = .next ((State.putWord { s with events := rest } r.array i v).respond .written) := by
    rw [step_event hs, serve_writeWord ha, hostWriteWord_some (s := { s with events := rest }) hl hw]
  refine ⟨_, ht, putWord_events .., rfl, ?_, fun a' r' j hl' hne => ?_, fun k j => ?_, sameObject_putWord _ r.array i v,
    putWord_params .., putWord_timeSamples .., putWord_samplesTaken ..⟩
  · rw [wordAt_respond, wordAt_putWord_same (s := { s with events := rest }) hm hl hw]
  · rw [wordAt_respond, wordAt_putWord_other (s := { s with events := rest }) hm hl hl' hne, wordAt_withEvents]
  · rw [byteAt_respond, byteAt_putWord, byteAt_withEvents]

end Sys2Proof.Machine

/-! Decoding and encoding: the fields of a command word, the table of legal words, and the rows of the opcode table (O1,
O2, O3, O4, O6). -/

namespace Sys2Proof.Machine

variable {i : Instr} {c : Word}

/-! ### A word and its fields (30_encoding.md R91, R92) -/

theorem fieldZeroZ_append_fieldOpc (c : Word) : fieldZeroZ c ++ fieldOpc c = c :=
  (BitVec.extractLsb'_append_extractLsb'_eq_extractLsb' rfl).trans BitVec.extractLsb'_eq_self

theorem fieldZeroK_append_fieldKsz (c : Word) : fieldZeroK c ++ fieldKsz c = fieldZeroZ c :=
  BitVec.extractLsb'_append_extractLsb'_eq_extractLsb' rfl

/-- A command's word is the one with its two fields. -/
theorem encode_eq_of_fields (hf : operandField i = fieldZeroZ c) (ho : opcode i = fieldOpc c) : encode i = c := by
  rw [encode, hf, ho, fieldZeroZ_append_fieldOpc]

/-! ### Decoding, by format (R91, R92, R94) -/

theorem decode_formatK (h : fieldOpc c = opcKeyexp) :
    decode c =
      if fieldZeroK c = 0#22 ∧ kszLegal (fieldKsz c) = true then some (.aesKeyexp (fieldKsz c)) else none :=
  if_pos h

theorem decode_formatZ (h : fieldOpc c ≠ opcKeyexp) :
    decode c = if fieldZeroZ c = 0#24 then opcodesZ.lookup (fieldOpc c) else none :=
  if_neg h

/-- Format K: a word that decodes is the encoding of its command. -/
theorem encode_of_decode_formatK (hk : fieldOpc c = opcKeyexp) (h : decode c = some i) :
    i.wf = true ∧ encode i = c := by
  rw [decode_formatK hk] at h
  obtain ⟨⟨hz, hl⟩, hi⟩ := Option.ite_none_right_eq_some.mp h
  cases hi
  have hf : operandField (.aesKeyexp (fieldKsz c)) = fieldZeroZ c := by
    rw [operandField, ← hz, fieldZeroK_append_fieldKsz]
  exact ⟨hl, encode_eq_of_fields hf hk.symm⟩

/-- Every entry of the map of format Z is the opcode of a well-formed command without an operand. -/
theorem opcodesZ_entries : ∀ e ∈ opcodesZ, e.2.wf = true ∧ operandField e.2 = 0#24 ∧ opcode e.2 = e.1 := by
  decide

theorem mem_opcodesZ_of_lookup {b : Byte} (h : opcodesZ.lookup b = some i) : (b, i) ∈ opcodesZ := by
  obtain ⟨before, after, he, -⟩ := List.lookup_eq_some_iff.mp h
  simp [he]

/-- Format Z: a word that decodes is the encoding of its command. -/
theorem encode_of_decode_formatZ (hk : fieldOpc c ≠ opcKeyexp) (h : decode c = some i) :
    i.wf = true ∧ encode i = c := by
  rw [decode_formatZ hk] at h
  obtain ⟨hz, hi⟩ := Option.ite_none_right_eq_some.mp h
  obtain ⟨hw, hf, ho⟩ := opcodesZ_entries _ (mem_opcodesZ_of_lookup hi)
  exact ⟨hw, encode_eq_of_fields (hf.trans hz.symm) ho⟩

/-- The word of a well-formed command decodes to it; the one operand goes through its four values. -/
theorem decode_encode (h : i.wf = true) : decode (encode i) = some i := by
  cases i with
  | aesKeyexp ksz => revert ksz; decide
  | _ => rfl

/-- Settles O1: a word that decodes is put together again from its fields, format by format, and encodings decode. -/
theorem decodeInvertsEncode : Obligations.DecodeInvertsEncode := by
  refine fun i c => ⟨fun h => ?_, fun ⟨hw, he⟩ => he ▸ decode_encode hw⟩
  by_cases hk : fieldOpc c = opcKeyexp
  · exact encode_of_decode_formatK hk h
  · exact encode_of_decode_formatZ hk h

/-! ### The table of legal words (R94, R95) -/

theorem legalWords_entries : ∀ e ∈ legalWords, e.2.wf = true ∧ encode e.2 = e.1 := by decide

theorem encode_mem_legalWords (h : i.wf = true) : (encode i, i) ∈ legalWords := by
  cases i with
  | aesKeyexp ksz => revert ksz; decide
  | _ => decide

/-- Settles O2: the table pairs each well-formed command with its encoding, and by O1 these words alone decode. -/
theorem legalWordsAreTheTable : Obligations.LegalWordsAreTheTable := by
  refine ⟨rfl, by decide, fun c i => ?_⟩
  rw [decodeInvertsEncode i c]
  exact ⟨fun ⟨hw, he⟩ => he ▸ encode_mem_legalWords hw, legalWords_entries (c, i)⟩

/-- A word outside the table is illegal. -/
theorem decode_eq_none_of_not_legal (h : c ∉ legalWords.map Prod.fst) : decode c = none := by
  obtain ⟨-, -, table⟩ := legalWordsAreTheTable
  exact Option.eq_none_iff_forall_ne_some.mpr fun i hi => h (List.mem_map_of_mem (f := Prod.fst) ((table c i).mp hi))

/-- Settles O4: the words of R94 are in the table, and the four of R272 are not. -/
theorem writtenWordsDecode : Obligations.WrittenWordsDecode := by
  obtain ⟨-, -, table⟩ := legalWordsAreTheTable
  simp only [Obligations.WrittenWordsDecode, table]
  refine ⟨by decide, by decide, by decide, by decide, by decide, by decide, by decide, by decide, ?_⟩
  exact ⟨decode_eq_none_of_not_legal (by decide), decode_eq_none_of_not_legal (by decide),
    decode_eq_none_of_not_legal (by decide), decode_eq_none_of_not_legal (by decide)⟩

/-! ### The rows of the opcode table (R96) -/

theorem selects_iff {r : OpcodeRow} : r.selects c = true ↔ c &&& r.mask = r.pattern := by
  simp [OpcodeRow.selects]

/-- Two rows that select one word agree on the bits both fix. -/
theorem pattern_and_mask_eq {r q : OpcodeRow} (hr : r.selects c = true) (hq : q.selects c = true) :
    r.pattern &&& q.mask = q.pattern &&& r.mask := by
  rw [← selects_iff.mp hr, ← selects_iff.mp hq, BitVec.and_assoc, BitVec.and_assoc, BitVec.and_comm r.mask]

/-- Any two rows differ in a bit both fix. -/
theorem opcodeRows_differ : opcodeRows.Pairwise fun r q => r.pattern &&& q.mask ≠ q.pattern &&& r.mask := by decide

/-- The row of `AES.KEYEXP`, the one whose mask leaves bits free. -/
def keyexpRow : OpcodeRow := ⟨"AES.KEYEXP", 0x00000001#32, 0xFFFFFCFF#32⟩

theorem keyexpRow_mem : keyexpRow ∈ opcodeRows := by decide

/-- Every other row fixes all bits, and its pattern is the word of a command. -/
theorem opcodeRows_cases : ∀ r ∈ opcodeRows,
    r = keyexpRow ∨
      (r.mnemonic ≠ "AES.KEYEXP" ∧ r.mask = BitVec.allOnes 32 ∧ (decode r.pattern).isSome = true) := by
  decide

/-- A word that decodes selects the row with its command's mnemonic. -/
theorem exists_selects_of_decode (h : decode c = some i) :
    ∃ r ∈ opcodeRows, r.selects c = true ∧ r.mnemonic = mnemonicOf i := by
  obtain ⟨hw, rfl⟩ := (decodeInvertsEncode i c).mp h
  cases i with
  | aesKeyexp ksz => exact ⟨keyexpRow, keyexpRow_mem, by revert ksz; decide, rfl⟩
  | _ => decide

/-- A word that selects no row is illegal. -/
theorem decode_eq_none_of_selects_none (h : ∀ r ∈ opcodeRows, r.selects c = false) : decode c = none :=
  Option.eq_none_iff_forall_ne_some.mpr fun _ hi => by
    obtain ⟨r, hr, hs, -⟩ := exists_selects_of_decode hi
    exact Bool.false_ne_true ((h r hr).symm.trans hs)

/-- A word that selects the row of `AES.KEYEXP` has its opcode, and its bits 31:10 are zero. -/
theorem fields_of_keyexpRow_selects (h : keyexpRow.selects c = true) :
    fieldOpc c = opcKeyexp ∧ fieldZeroK c = 0#22 := by
  have hc : c &&& 0xFFFFFCFF#32 = 0x00000001#32 := selects_iff.mp h
  have hopc : fieldOpc (c &&& 0xFFFFFCFF#32) = fieldOpc c := BitVec.extractLsb'_and.trans BitVec.and_allOnes
  have hzero : fieldZeroK (c &&& 0xFFFFFCFF#32) = fieldZeroK c := BitVec.extractLsb'_and.trans BitVec.and_allOnes
  rw [← hopc, ← hzero, hc]
  decide

/-- A word that selects the row of `AES.KEYEXP` is illegal exactly where its key-size code is 3. -/
theorem decode_eq_none_of_keyexpRow (h : keyexpRow.selects c = true) : decode c = none ↔ fieldKsz c = 3#2 := by
  obtain ⟨hopc, hzero⟩ := fields_of_keyexpRow_selects h
  simp [decode_formatK hopc, hzero, kszLegal]

/-- An illegal word selects no row but that of `AES.KEYEXP`. -/
theorem eq_keyexpRow_of_selects (hc : decode c = none) {r : OpcodeRow} (hr : r ∈ opcodeRows)
    (h : r.selects c = true) : r = keyexpRow := by
  obtain hk | ⟨-, hm, hp⟩ := opcodeRows_cases r hr
  · exact hk
  · have he : c = r.pattern := by rw [← selects_iff.mp h, hm, BitVec.and_allOnes]
    rw [← he, hc] at hp
    cases hp

/-- Settles O3: rows differ in bits both fix, a word that decodes selects its row, and the row of `AES.KEYEXP` is the
only one that an illegal word can select. -/
theorem opcodeRowsSelectCommands : Obligations.OpcodeRowsSelectCommands := by
  refine ⟨opcodeRows_differ.imp fun hd c ⟨hr, hq⟩ => hd (pattern_and_mask_eq hr hq),
    fun c i => exists_selects_of_decode, fun c => ⟨fun hc => ?_, ?_⟩⟩
  · by_cases hk : keyexpRow.selects c = true
    · exact .inr ⟨keyexpRow, keyexpRow_mem, rfl, hk, (decode_eq_none_of_keyexpRow hk).mp hc⟩
    · exact .inl fun r hr => Bool.eq_false_iff.mpr fun h => hk (eq_keyexpRow_of_selects hc hr h ▸ h)
  · rintro (hnone | ⟨r, hr, hm, hs, hksz⟩)
    · exact decode_eq_none_of_selects_none hnone
    · obtain rfl | ⟨hne, -⟩ := opcodeRows_cases r hr
      · exact (decode_eq_none_of_keyexpRow hs).mpr hksz
      · exact absurd hm hne

/-! ### The step of an illegal word (R95) -/

/-- Settles O6: a word outside the table does not decode, and its write to `CMD` ends in the fault. -/
theorem illegalWordFaults : Obligations.IllegalWordFaults := by
  intro s c rest hs hc
  rw [step_event hs, serve_writeCmd, runCommand_none (decode_eq_none_of_not_legal hc)]
  rfl

end Sys2Proof.Machine

/-! Host scripts: a `time` line wherever it stands, and loading an input element by element (O60). -/

namespace Sys2Proof.Machine

variable {s : State} {w : Nat}

/-! ### `time` lines (30_encoding.md R97; log entry 14) -/

theorem runScript_time {t : State} {ls : List ScriptLine} (h : runScript s ls = some t) (x : TimeSample) :
    runScript s (ls ++ [.time x]) = some (t.driveTime x) := by
  rw [runScript_append, h]
  rfl

/-- A `PW.ENCRYPT` placed before a `time` line runs as if the line were not there, and the line is of the next one. -/
theorem step_encrypt_then_time (hs : s.events = []) (x : TimeSample) :
    ∃ t u, step (s.loadScript [.cmd .pwEncrypt, .time x]) = .next t ∧
      exec .pwEncrypt { s with events := [.driveTime x], cmd := 0x00000041#32, response := .written } = .next t ∧
      step t = .next u ∧ u = { t with events := [], timeSamples := u.timeSamples } ∧ u.timeSample = x := by
  obtain ⟨t, ht⟩ := everyCommandWriteEnds.1 .pwEncrypt
    { s with events := [.driveTime x], cmd := 0x00000041#32, response := .written }
  have hload : s.loadScript [.time x] = { s with events := [.driveTime x] } := by
    simp [State.loadScript, hs, ScriptLine.event]
  have hstep : step (s.loadScript [.cmd .pwEncrypt, .time x]) = .next t := by
    rw [step_loadScript hs, ScriptLine.event, serve_writeCmd, runCommand_some (decode_encode rfl), hload]
    exact ht
  exact ⟨t, _, hstep, ht, step_event (exec_writesOnly ht).events, rfl, rfl⟩

/-! ### Writes through the bus, element by element (20_memory.md R62, R65) -/

/-- `wr8` to an element of a writable row stores the byte. -/
theorem runLine_wr8_element (hp : s.params.Legal) {r : MapRow ByteArr} (hr : r ∈ byteRows s.params)
    (hw : r.writable = true) {i : Nat} (hi : i < r.count) (ha : (byteOffset r.array i).toNat = r.base + i) (v : Byte) :
    runLine s (.wr8 r.array i v) = some ((s.putByte r.array i v).respond .written) := by
  obtain ⟨bytes, -⟩ := addressMapIsExact s.params hp
  rw [runLine_wr8, hostWriteByte_some (bytes r hr i hi _ ha).1 hw]

/-- `wr32` to an element of a writable row other than that of `CMD` stores the word. -/
theorem runLine_wr32_element (hp : s.params.Legal) {r : MapRow WordArr} (hr : r ∈ wordRows s.params)
    (hw : r.writable = true) {i : Nat} (hi : i < r.count) (ha : (wordOffset r.array i).toNat = r.base + 4 * i)
    (hb : 0 < r.base) (v : Word) :
    runLine s (.wr32 r.array i v) = some ((s.putWord r.array i v).respond .written) := by
  obtain ⟨-, words, -⟩ := addressMapIsExact s.params hp
  have hc : wordOffset r.array i ≠ cmdOffset := fun h => by
    have : cmdOffset.toNat = 0 := rfl
    rw [h] at ha
    omega
  rw [runLine_wr32 hc, hostWriteWord_some (words r hr i hi _ ha).1 hw]

theorem toNat_byteOffset_bin {i : Nat} (h : i < 65536) : (byteOffset .bin i).toNat = 0x10000 + i :=
  Nat.mod_eq_of_lt (by show 0x10000 + i < 2 ^ 20; omega)

theorem toNat_wordOffset_tin {i : Nat} (h : i < 65536) : (wordOffset .tin i).toNat = 0x40000 + 4 * i :=
  Nat.mod_eq_of_lt (by show 0x40000 + 4 * i < 2 ^ 20; omega)

/-! ### Loading a buffer (R98) -/

/-- Writing one more element after the first `xs.length`. -/
theorem Memory.writePrefix_concat {m : Memory w} (hm : m.wf) (xs : List (BitVec w)) (x : BitVec w) :
    Memory.writePrefix m (xs ++ [x]) = Memory.write (Memory.writePrefix m xs) xs.length x := by
  have hwf := Memory.writePrefix_wf xs hm
  refine Memory.ext_of_wf (Memory.writePrefix_wf _ hm) (Memory.write_wf _ _ hwf) fun j => ?_
  rw [Memory.read_writePrefix, Memory.read_write hwf, Memory.read_writePrefix]
  rcases Nat.lt_trichotomy j xs.length with h | h | h
  · simp [h, Nat.ne_of_lt h, Nat.lt_succ_of_lt h, List.getD_eq_getElem?_getD]
  · simp [h]
  · simp [Nat.ne_of_gt h, Nat.not_lt_of_gt h, Nat.not_lt_of_ge (Nat.succ_le_of_lt h)]

/-- Lines that each write one element, run over a sequence that fits, write it from index 0 on. `put` builds the state
from the buffer and the bus's last answer. -/
theorem runScript_elements {put : Memory w → BusResponse → State} {line : Nat → BitVec w → ScriptLine} {n : Nat}
    (hline : ∀ m r i v, i < n → runLine (put m r) (line i v) = some (put (Memory.write m i v) .written))
    {m : Memory w} (hm : m.wf) (r : BusResponse) (xs : List (BitVec w)) (hx : xs.length ≤ n) :
    ∃ r', runScript (put m r) (xs.zipIdx.map fun c => line c.2 c.1) = some (put (Memory.writePrefix m xs) r') := by
  induction xs using List.reverseRecOn with
  | nil => exact ⟨r, by simp [Memory.writePrefix, Memory.cellsFrom]⟩
  | append_singleton xs x ih =>
    rw [List.length_append, List.length_singleton] at hx
    obtain ⟨r', hr'⟩ := ih (by omega)
    refine ⟨.written, ?_⟩
    rw [List.zipIdx_append, List.map_append, runScript_append, hr', Memory.writePrefix_concat hm]
    simp [hline _ _ _ _ hx]

/-- `s` with another `BIN` and another last answer of the bus. -/
def State.withBin (s : State) (m : Memory 8) (r : BusResponse) : State := { s with bin := m, response := r }

/-- `s` with another `TIN` and another last answer of the bus. -/
def State.withTin (s : State) (m : Memory 32) (r : BusResponse) : State := { s with tin := m, response := r }

theorem runLine_wr8_bin (hp : s.params.Legal) (m : Memory 8) (r : BusResponse) {i : Nat} (hi : i < s.params.bufBytes)
    (v : Byte) : runLine (s.withBin m r) (.wr8 .bin i v) = some (s.withBin (Memory.write m i v) .written) := by
  have hrow : ⟨.bin, 0x10000, s.params.bufBytes, true⟩ ∈ byteRows (s.withBin m r).params := by
    simp [byteRows, State.withBin]
  have hoff := toNat_byteOffset_bin (hi.trans_le hp.2.1)
  exact runLine_wr8_element (s := s.withBin m r) hp hrow rfl hi hoff v

theorem runLine_wr32_tin (hp : s.params.Legal) (m : Memory 32) (r : BusResponse) {i : Nat} (hi : i < s.params.bufCps)
    (v : Word) : runLine (s.withTin m r) (.wr32 .tin i v) = some (s.withTin (Memory.write m i v) .written) := by
  have hrow : ⟨.tin, 0x40000, s.params.bufCps, true⟩ ∈ wordRows (s.withTin m r).params := by
    simp [wordRows, State.withTin]
  have hoff := toNat_wordOffset_tin (hi.trans_le hp.2.2.2)
  exact runLine_wr32_element (s := s.withTin m r) hp hrow rfl hi hoff (Nat.succ_pos _) v

theorem runLine_wr32_binlen (hp : s.params.Legal) (v : Word) :
    runLine s (.wr32 .binlen 0 v) = some { s with binlen := v, response := .written } :=
  runLine_wr32_element hp (r := ⟨.binlen, 0x0000C, 1, true⟩) (by simp [wordRows]) rfl Nat.one_pos rfl (by decide) v

theorem runLine_wr32_tinlen (hp : s.params.Legal) (v : Word) :
    runLine s (.wr32 .tinlen 0 v) = some { s with tinlen := v, response := .written } :=
  runLine_wr32_element hp (r := ⟨.tinlen, 0x00014, 1, true⟩) (by simp [wordRows]) rfl Nat.one_pos rfl (by decide) v

/-- `ldbytes` writes its input to `BIN` from index 0 on and its length to `BINLEN`. -/
theorem runScript_ldbytes (hp : s.params.Legal) (hm : s.bin.wf) {b : List Byte} (hb : b.length ≤ s.params.bufBytes) :
    runScript s (ldbytes b) =
      some { s with bin := s.bin.writePrefix b, binlen := BitVec.ofNat 32 b.length, response := .written } := by
  obtain ⟨r, hr⟩ := runScript_elements (fun m r i v hi => runLine_wr8_bin hp m r hi v) hm s.response b hb
  have hload : runScript s (ld8 .bin b) = some (s.withBin (s.bin.writePrefix b) r) := hr
  rw [ldbytes, runScript_append, hload]
  simp only [Option.bind_some, runScript_cons, runScript_nil, runLine_wr32_binlen (s := s.withBin _ r) hp]
  rfl

/-- `ldtext` writes its input to `TIN` from index 0 on and its length to `TINLEN`. -/
theorem runScript_ldtext (hp : s.params.Legal) (hm : s.tin.wf) {text : List Word}
    (ht : text.length ≤ s.params.bufCps) :
    runScript s (ldtext text) =
      some { s with tin := s.tin.writePrefix text, tinlen := BitVec.ofNat 32 text.length, response := .written } := by
  obtain ⟨r, hr⟩ := runScript_elements (fun m r i v hi => runLine_wr32_tin hp m r hi v) hm s.response text ht
  have hload : runScript s (text.zipIdx.map fun c => .wr32 .tin c.2 c.1) =
      some (s.withTin (s.tin.writePrefix text) r) := hr
  rw [ldtext, runScript_append, hload]
  simp only [Option.bind_some, runScript_cons, runScript_nil, runLine_wr32_tinlen (s := s.withTin _ r) hp]
  rfl

/-- What reading gives after `xs` is written from index 0 on: `xs`, and what stood there from its length on. -/
theorem Memory.read_after_writePrefix (m : Memory w) (xs : List (BitVec w)) :
    Memory.readPrefix (Memory.writePrefix m xs) xs.length = xs ∧
      ∀ i, xs.length ≤ i → Memory.read (Memory.writePrefix m xs) i = Memory.read m i :=
  ⟨Memory.readPrefix_writePrefix m xs, fun i hi => by rw [Memory.read_writePrefix, if_neg (Nat.not_lt_of_ge hi)]⟩

/-- Settles O60: a `time` line drives the ports and nothing else, and the load lines write one element each. -/
theorem scriptsLoadInputs : Obligations.ScriptsLoadInputs := by
  refine ⟨fun s t ls x h => ⟨_, runScript_time h x, rfl, rfl, rfl⟩,
    fun s ls x hs => ⟨?_, step_encrypt_then_time hs x⟩, fun s hp hm => ?_⟩
  · rw [step_loadScript hs]
    rfl
  · obtain ⟨hbin, -, htin, -, -⟩ := hm
    exact ⟨fun b hb => ⟨_, runScript_ldbytes hp hbin hb, rfl, Memory.read_after_writePrefix s.bin b⟩,
      fun text ht => ⟨_, runScript_ldtext hp htin ht, rfl, Memory.read_after_writePrefix s.tin text⟩⟩

end Sys2Proof.Machine

/-! The substitution tables: their defining formula and that they are inverse to each other (O42). -/

namespace Sys2Proof.Machine

/-- The affine map in the definition of `SBOX` (40_aes_key_expansion.md R111). -/
def sboxAffine (b : Byte) : Byte :=
  b ^^^ b.rotateLeft 1 ^^^ b.rotateLeft 2 ^^^ b.rotateLeft 3 ^^^ b.rotateLeft 4 ^^^ 0x63#8

/-- The inverse of `sboxAffine`. -/
def sboxAffineInv (y : Byte) : Byte := y.rotateLeft 1 ^^^ y.rotateLeft 3 ^^^ y.rotateLeft 6 ^^^ 0x05#8

theorem row_append_column (a : Byte) : BitVec.ofNat 4 (a.toNat / 16) ++ BitVec.ofNat 4 a.toNat = a := by
  refine BitVec.eq_of_toNat_eq ?_
  rw [toNat_append_eq, BitVec.toNat_ofNat, BitVec.toNat_ofNat]
  omega

/-- A fact of every byte, shown one row of the printed table at a time (R111): a row is a small enough computation. -/
theorem forall_byte_of_rows {p : Byte → Prop} (h : ∀ r < 16, ∀ column : BitVec 4, p (BitVec.ofNat 4 r ++ column))
    (a : Byte) : p a :=
  row_append_column a ▸ h (a.toNat / 16) (by omega) (BitVec.ofNat 4 a.toNat)

/-- The two tables at every byte: the entry of `SBOX` with the affine map undone is the byte's inverse in the field, the
entry is another byte, and each table undoes the other (R111; 42_aes_inv_cipher.md R150). -/
theorem tables_at_byte : ∀ a : Byte,
    (a ≠ 0x00#8 → gmul a (sboxAffineInv (sbox a)) = 0x01#8) ∧ sboxAffine (sboxAffineInv (sbox a)) = sbox a ∧
      sbox a ≠ a ∧ invSbox (sbox a) = a ∧ sbox (invSbox a) = a :=
  forall_byte_of_rows fun r hr => by
    interval_cases r <;> decide +kernel

theorem sboxAffineInv_sbox_zero : sboxAffineInv (sbox 0x00#8) = 0x00#8 := by decide

@[simp] theorem invSbox_sbox (a : Byte) : invSbox (sbox a) = a := by
  obtain ⟨-, -, -, h, -⟩ := tables_at_byte a
  exact h

@[simp] theorem sbox_invSbox (a : Byte) : sbox (invSbox a) = a := by
  obtain ⟨-, -, -, -, h⟩ := tables_at_byte a
  exact h

@[simp] theorem getElem_subBytes (s : Block) {i : Nat} (h : i < 16) : (subBytes s)[i] = sbox s[i] :=
  Vector.getElem_ofFn h

@[simp] theorem getElem_invSubBytes (s : Block) {i : Nat} (h : i < 16) : (invSubBytes s)[i] = invSbox s[i] :=
  Vector.getElem_ofFn h

/-- Settles O42: the inverse of a byte in the field is its entry of `SBOX` with the affine map undone. -/
theorem substitutionTablesAgree : Obligations.SubstitutionTablesAgree := by
  refine ⟨fun s i h => ⟨getElem_subBytes s h, getElem_invSubBytes s h⟩, fun a => ?_, fun a => ?_, invSbox_sbox,
    sbox_invSbox⟩
  · obtain ⟨inverse, affine, -⟩ := tables_at_byte a
    refine ⟨sboxAffineInv (sbox a), ?_, inverse, affine.symm⟩
    rintro rfl
    exact sboxAffineInv_sbox_zero
  · obtain ⟨-, -, moved, -⟩ := tables_at_byte a
    exact moved

end Sys2Proof.Machine

/-! Key expansion word by word (O44) and the command `AES.KEYEXP` (O27). -/

namespace Sys2Proof.Machine

variable {s : State} {key : List Byte} {ksz : BitVec 2} {nk m i : Nat}

/-! ### One turn of the expansion (40_aes_key_expansion.md R115) -/

/-- Word `i` of a schedule, from the word `Nk` before it, the word before it and the round constant: cases (a), (b) and
(c) (R115). -/
def expandedWord (nk i : Nat) (back prev : KeyWord) (rc : Byte) : KeyWord :=
  xorWord back
    (if i % nk = 0 then addRoundConstant (subWord (rotWord prev)) rc
    else if nk = 8 ∧ i % nk = 4 then subWord prev
    else prev)

/-- Only case (a) uses the round constant. -/
theorem expandedWord_congr {back prev : KeyWord} {rc rc' : Byte} (h : i % nk = 0 → rc = rc') :
    expandedWord nk i back prev rc = expandedWord nk i back prev rc' := by
  by_cases ha : i % nk = 0
  · rw [h ha]
  · simp only [expandedWord, if_neg ha]

/-- Each turn appends the word of its case, and doubles the round constant after a use of it (R114). -/
theorem keyExpansionStep_eq (nk : Nat) (ws : List KeyWord) (rc : Byte) (i : Nat) :
    keyExpansionStep nk (ws, rc) i =
      (ws ++ [expandedWord nk i (scheduleWord ws (i - nk)) (scheduleWord ws (i - 1)) rc],
        if i % nk = 0 then xtime rc else rc) := by
  unfold keyExpansionStep expandedWord
  by_cases ha : i % nk = 0
  · simp only [if_pos ha]
  · by_cases hb : nk = 8 ∧ i % nk = 4
    · simp only [if_neg ha, if_pos hb]
    · simp only [if_neg ha, if_neg hb]

/-- The words and the round constant after `m` turns, with word `Nk + m` to be computed next. -/
def expansionTurns (key : List Byte) (nk m : Nat) : List KeyWord × Byte :=
  (List.range' nk m).foldl (keyExpansionStep nk) ((List.range nk).map (keyWord key), 0x01#8)

theorem expansionTurns_succ (key : List Byte) (nk m : Nat) :
    expansionTurns key nk (m + 1) = keyExpansionStep nk (expansionTurns key nk m) (nk + m) := by
  rw [expansionTurns, List.range'_1_concat, List.foldl_append]
  rfl

theorem length_expansionTurns (key : List Byte) (nk m : Nat) : (expansionTurns key nk m).1.length = nk + m := by
  obtain ⟨ws, hws, hl⟩ := foldl_keyExpansionStep nk (List.range' nk m) ((List.range nk).map (keyWord key), 0x01#8)
  rw [expansionTurns, hws, List.length_append, hl, List.length_map, List.length_range, List.length_range']

theorem roundConstant_succ (n : Nat) : roundConstant (n + 1) = xtime (roundConstant n) :=
  Function.iterate_succ_apply' xtime n 0x01#8

/-- The round constant has been doubled once for each multiple of `Nk` from `Nk` to the last word computed (R114). -/
theorem roundConstant_expansionTurns (hnk : 0 < nk) (m : Nat) :
    (expansionTurns key nk m).2 = roundConstant ((nk + m - 1) / nk) := by
  induction m with
  | zero => rw [Nat.add_zero, Nat.div_eq_of_lt (Nat.sub_one_lt_of_lt hnk)]; rfl
  | succ m ih =>
    have hdiv := Nat.succ_div (a := nk + m - 1) (b := nk)
    rw [Nat.sub_add_cancel (by omega : 1 ≤ nk + m)] at hdiv
    rw [expansionTurns_succ, keyExpansionStep_eq, ih, Nat.add_succ_sub_one, hdiv]
    by_cases hd : nk ∣ nk + m
    · rw [if_pos hd, if_pos (Nat.mod_eq_zero_of_dvd hd), roundConstant_succ]
    · rw [if_neg hd, if_neg (mt Nat.dvd_of_mod_eq_zero hd), Nat.add_zero]

/-- At a multiple of `Nk`, the round constant's number is that of the uses before. -/
theorem sub_one_div_of_mod_eq_zero (hi : 0 < i) (h : i % nk = 0) : (i - 1) / nk = i / nk - 1 := by
  have hdiv := Nat.succ_div_of_dvd (a := i - 1) (b := nk)
    (by rw [Nat.sub_add_cancel hi]; exact Nat.dvd_of_mod_eq_zero h)
  rw [Nat.sub_add_cancel hi] at hdiv
  rw [hdiv, Nat.add_sub_cancel]

/-! ### The words of the schedule -/

theorem scheduleWord_append {ws : List KeyWord} (h : i < ws.length) (rest : List KeyWord) :
    scheduleWord (ws ++ rest) i = scheduleWord ws i :=
  List.getD_append _ _ _ _ h

/-- The schedule begins with the words of the first turns. -/
theorem keyExpansionWords_eq_turns_append (key : List Byte) (h : nk + m ≤ 4 * (roundsOf nk + 1)) :
    ∃ rest, keyExpansionWords key nk = (expansionTurns key nk m).1 ++ rest := by
  obtain ⟨n, hn⟩ := Nat.exists_eq_add_of_le (Nat.le_sub_of_add_le' h)
  obtain ⟨rest, hrest, -⟩ := foldl_keyExpansionStep nk (List.range' (nk + m) n) (expansionTurns key nk m)
  rw [keyExpansionWords, hn, ← List.range'_append_1, List.foldl_append]
  exact ⟨rest, hrest⟩

/-- A word after the key's, from the words of the schedule before it (R115). -/
theorem scheduleWord_keyExpansionWords_of_ge (hnk : 0 < nk) (hi : nk ≤ i) (hn : i < 4 * (roundsOf nk + 1)) :
    scheduleWord (keyExpansionWords key nk) i =
      expandedWord nk i (scheduleWord (keyExpansionWords key nk) (i - nk))
        (scheduleWord (keyExpansionWords key nk) (i - 1)) (roundConstant ((i - 1) / nk)) := by
  obtain ⟨m, rfl⟩ := Nat.exists_eq_add_of_le hi
  have hlen := length_expansionTurns key nk m
  obtain ⟨rest, hsplit⟩ := keyExpansionWords_eq_turns_append (m := m + 1) key hn
  rw [expansionTurns_succ, keyExpansionStep_eq, roundConstant_expansionTurns hnk, List.append_assoc] at hsplit
  have hbefore : ∀ j, j < nk + m →
      scheduleWord (keyExpansionWords key nk) j = scheduleWord (expansionTurns key nk m).1 j := fun j hj => by
    rw [hsplit, scheduleWord_append (hlen.symm ▸ hj)]
  rw [hbefore (nk + m - nk) (by omega), hbefore (nk + m - 1) (by omega), hsplit, scheduleWord,
    List.getD_append_right _ _ _ _ hlen.le, hlen, Nat.sub_self]
  rfl

/-- A word of the key comes unchanged (R115). -/
theorem scheduleWord_keyExpansionWords_of_lt (key : List Byte) (h : i < nk) :
    scheduleWord (keyExpansionWords key nk) i = keyWord key i := by
  obtain ⟨ws, hws, -⟩ := keyExpansionWords_eq key nk
  rw [hws, scheduleWord_append (by simpa using h), scheduleWord, List.getD_eq_getElem _ _ (by simpa using h),
    List.getElem_map, List.getElem_range]

theorem length_keyExpansionWords (key : List Byte) (nk : Nat) :
    (keyExpansionWords key nk).length = 4 * (roundsOf nk + 1) := by
  obtain ⟨ws, hws, hl⟩ := keyExpansionWords_eq key nk
  rw [hws, List.length_append, hl, List.length_map, List.length_range]
  simp only [roundsOf]
  omega

/-! ### The bytes of the key (R116 (a)) -/

theorem getElem_keyWord (key : List Byte) (i : Nat) {j : Nat} (h : j < 4) :
    (keyWord key i)[j] = key.getD (4 * i + j) 0#8 := by
  interval_cases j <;> rfl

theorem toList_keyWord (h : 4 * i + 4 ≤ key.length) : (keyWord key i).toList = (key.drop (4 * i)).take 4 := by
  refine List.ext_getElem (by rw [Vector.length_toList, List.length_take, List.length_drop]; omega) fun j hj _ => ?_
  rw [Vector.length_toList] at hj
  rw [Vector.getElem_toList, getElem_keyWord key i hj, List.getD_eq_getElem key 0#8 (by omega), List.getElem_take,
    List.getElem_drop]

/-- The words of the key are its bytes in order. -/
theorem flatMap_keyWords (h : 4 * nk ≤ key.length) :
    ((List.range nk).map (keyWord key)).flatMap (fun w => w.toList) = key.take (4 * nk) := by
  induction nk with
  | zero => rfl
  | succ n ih =>
    rw [List.range_succ, List.map_append, List.flatMap_append, ih (by omega), Nat.mul_succ, List.take_add,
      ← toList_keyWord (by omega), List.map_singleton, List.flatMap_singleton]

/-- The schedule begins with the bytes of the key. -/
theorem take_keyExpansion (h : key.length = 4 * nk) : (keyExpansion key nk).take (4 * nk) = key := by
  obtain ⟨ws, hws, -⟩ := keyExpansionWords_eq key nk
  rw [keyExpansion, hws, List.flatMap_append, flatMap_keyWords h.ge, ← h, List.take_length, List.take_left]

/-- The ten round constants the expansion uses (R114). -/
theorem roundConstants : (List.range 10).map roundConstant =
    [0x01#8, 0x02#8, 0x04#8, 0x08#8, 0x10#8, 0x20#8, 0x40#8, 0x80#8, 0x1B#8, 0x36#8] := by decide

/-- Settles O44: each turn of the expansion appends the word of its case. -/
theorem keyExpansionRecurrence : Obligations.KeyExpansionRecurrence := by
  refine ⟨roundConstants, fun key nk hmem => ?_⟩
  have hnk : 0 < nk := Nat.pos_of_ne_zero fun h => by simp [h] at hmem
  refine ⟨length_keyExpansionWords key nk, length_keyExpansion key nk, take_keyExpansion,
    fun i => scheduleWord_keyExpansionWords_of_lt key, fun i hi hn => ?_⟩
  rw [scheduleWord_keyExpansionWords_of_ge hnk hi hn]
  exact expandedWord_congr fun ha => congrArg roundConstant (sub_one_div_of_mod_eq_zero (hnk.trans_le hi) ha)

/-! ### The command (R117) -/

theorem exec_aesKeyexp (hk : kszLegal ksz = true) (s : State) :
    exec (.aesKeyexp ksz) s =
      .next ({ s with ks := padTo 240 (keyExpansion (s.keyOperand (kszNk ksz)) (kszNk ksz)) }.setSchedule
        (roundsOf (kszNk ksz))).complete := by
  rw [exec_eq, bodyOf, if_pos hk]
  rfl

/-- Settles O27: the state after the command is written out, and its `KS` is read byte by byte. -/
theorem keyexpResult : Obligations.KeyexpResult := by
  refine ⟨by decide, by decide, by decide, fun s ksz hksz => ?_⟩
  have hk : kszLegal ksz = true := bne_iff_ne.mpr hksz
  have hnr := (toNat_legal_rounds hk).trans (roundsOf_kszNk ksz)
  have hlen := length_keyExpansion (s.keyOperand (kszNk ksz)) (kszNk ksz)
  rw [← toNat_legal_rounds hk] at hlen
  refine ⟨_, exec_aesKeyexp hk s, rfl, hnr, hlen, fun j hj => ?_⟩
  refine (getD_toList_padTo 240 _ j).trans ?_
  rw [if_pos hj]
  split
  · rfl
  · next hend => exact List.getD_eq_default _ _ (hlen.trans_le (Nat.not_lt.mp hend))

end Sys2Proof.Machine

/-! Multiplication in GF(2^8): `gmul` from what it does with an additive map that commutes with doubling (O43). -/

namespace Sys2Proof.Machine

/-- `f` respects the addition of bytes and their doubling: the maps that a turn of the loop of `gmul` commutes with
(41_aes_cipher.md R131). -/
structure XtimeLinear (f : Byte → Byte) : Prop where
  xor : ∀ a b, f (a ^^^ b) = f a ^^^ f b
  xtime : ∀ a, f (xtime a) = xtime (f a)

theorem xtime_xor (a b : Byte) : xtime (a ^^^ b) = xtime a ^^^ xtime b := by
  unfold xtime
  rw [BitVec.getLsbD_xor, BitVec.shiftLeft_xor_distrib]
  cases a.getLsbD 7 <;> cases b.getLsbD 7
  · rfl
  · exact BitVec.xor_assoc ..
  · show _ = a <<< 1 ^^^ 0x1B#8 ^^^ b <<< 1
    ac_rfl
  · show a <<< 1 ^^^ b <<< 1 = a <<< 1 ^^^ 0x1B#8 ^^^ (b <<< 1 ^^^ 0x1B#8)
    rw [BitVec.xor_assoc, BitVec.xor_comm 0x1B#8, BitVec.xor_assoc (b <<< 1), BitVec.xor_self, BitVec.xor_zero]

theorem xtimeLinear_xtime : XtimeLinear xtime := ⟨xtime_xor, fun _ => rfl⟩

namespace XtimeLinear

variable {f : Byte → Byte}

theorem zero (hf : XtimeLinear f) : f 0x00#8 = 0x00#8 := by
  have h := hf.xor 0x00#8 0x00#8
  rwa [BitVec.xor_self, BitVec.xor_self] at h

theorem foldl_gmulStep (hf : XtimeLinear f) (b : Byte) (ks : List Nat) (r a : Byte) :
    f (ks.foldl (gmulStep b) (r, a)).1 = (ks.foldl (gmulStep b) (f r, f a)).1 := by
  induction ks generalizing r a with
  | nil => rfl
  | cons k ks ih =>
    simp only [List.foldl_cons, gmulStep, ih, hf.xtime, apply_ite f, hf.xor]

/-- Such a map may be applied to the first factor instead of the product. -/
theorem map_gmul (hf : XtimeLinear f) (a b : Byte) : f (gmul a b) = gmul (f a) b := by
  rw [gmul, hf.foldl_gmulStep, hf.zero, gmul]

end XtimeLinear

theorem foldl_gmulStep_xor (b : Byte) (ks : List Nat) (r r' a a' : Byte) :
    (ks.foldl (gmulStep b) (r ^^^ r', a ^^^ a')).1 =
      (ks.foldl (gmulStep b) (r, a)).1 ^^^ (ks.foldl (gmulStep b) (r', a')).1 := by
  induction ks generalizing r r' a a' with
  | nil => rfl
  | cons k ks ih =>
    simp only [List.foldl_cons, gmulStep]
    rw [xtime_xor, ← ih]
    split
    · congr 3
      ac_rfl
    · rfl

theorem gmul_xor_left (a b c : Byte) : gmul (a ^^^ b) c = gmul a c ^^^ gmul b c :=
  foldl_gmulStep_xor c (List.range 8) 0#8 0#8 a b

theorem gmul_xtime_left (a b : Byte) : gmul (xtime a) b = xtime (gmul a b) := (xtimeLinear_xtime.map_gmul a b).symm

theorem xtimeLinear_gmul_right (b : Byte) : XtimeLinear (gmul · b) :=
  ⟨fun a a' => gmul_xor_left a a' b, fun a => gmul_xtime_left a b⟩

theorem gmul_one_left : ∀ a : Byte, gmul 0x01#8 a = a :=
  forall_byte_of_rows fun r hr => by
    interval_cases r <;> decide +kernel

/-- The product with `b` is a map of the first factor, which is `1 * a`. -/
theorem gmul_comm (a b : Byte) : gmul a b = gmul b a := by
  have h := (xtimeLinear_gmul_right b).map_gmul 0x01#8 a
  simpa only [gmul_one_left] using h

theorem xtimeLinear_gmul_left (a : Byte) : XtimeLinear (gmul a) := by
  rw [show gmul a = (gmul · a) from funext (gmul_comm a)]
  exact xtimeLinear_gmul_right a

theorem gmul_xor_right (a b c : Byte) : gmul a (b ^^^ c) = gmul a b ^^^ gmul a c := (xtimeLinear_gmul_left a).xor b c

theorem gmul_assoc (a b c : Byte) : gmul (gmul a b) c = gmul a (gmul b c) :=
  ((xtimeLinear_gmul_left a).map_gmul b c).symm

@[simp] theorem gmul_one (a : Byte) : gmul a 0x01#8 = a := (gmul_comm a _).trans (gmul_one_left a)

@[simp] theorem gmul_zero (a : Byte) : gmul a 0x00#8 = 0x00#8 := (xtimeLinear_gmul_left a).zero

theorem gmul_two (a : Byte) : gmul a 0x02#8 = xtime a := by
  have h := (xtimeLinear_gmul_left a).xtime 0x01#8
  rwa [gmul_one] at h

theorem gmul_three (a : Byte) : gmul a 0x03#8 = xtime a ^^^ a := by
  have h := gmul_xor_right a 0x02#8 0x01#8
  rwa [gmul_two, gmul_one] at h

/-- Settles O43: the product is additive in each factor and commutes with doubling, and `gmul 1 a = a`. -/
theorem gmulIsFieldMultiplication : Obligations.GmulIsFieldMultiplication :=
  ⟨gmul_comm, gmul_assoc, gmul_xor_right, fun a => ⟨gmul_one a, gmul_zero a, gmul_two a, gmul_three a⟩⟩

end Sys2Proof.Machine

/-! The linear layers of the cipher, cell by cell (O45). -/

namespace Sys2Proof.Machine

variable {s t : Block} {r r' c c' i : Nat}

/-! ### Cells (41_aes_cipher.md R132) -/

theorem cellAt_congr (hr : r % 4 = r' % 4) (hc : c % 4 = c' % 4) : cellAt s r c = cellAt s r' c' := by
  simp only [cellAt, hr, hc]

theorem getElem_eq_cellAt (s : Block) (hr : r < 4) (hc : c < 4) : s[4 * c + r] = cellAt s r c := by
  simp only [cellAt, Nat.mod_eq_of_lt hr, Nat.mod_eq_of_lt hc, Nat.add_comm]

/-- A layer given by a function of the row and the column of each cell. -/
theorem cellAt_ofFn (f : Nat → Nat → Byte) (r c : Nat) :
    cellAt (Vector.ofFn fun i => f (i.val % 4) (i.val / 4)) r c = f (r % 4) (c % 4) := by
  rw [cellAt, Vector.getElem_ofFn]
  show f ((r % 4 + 4 * (c % 4)) % 4) ((r % 4 + 4 * (c % 4)) / 4) = f (r % 4) (c % 4)
  congr 1 <;> omega

theorem block_ext (h : ∀ r c, cellAt s r c = cellAt t r c) : s = t := by
  refine Vector.ext fun i hi => ?_
  have h := h (i % 4) (i / 4)
  rw [← getElem_eq_cellAt s (by omega) (by omega), ← getElem_eq_cellAt t (by omega) (by omega)] at h
  simpa only [Nat.div_add_mod] using h

/-! ### `AddRoundKey` (R133) -/

theorem getElem_addRoundKey (s : Block) (ks : Schedule) (r : Nat) (hi : i < 16) :
    (addRoundKey s ks r)[i] = s[i] ^^^ (roundKey ks r).getD i 0#8 :=
  Vector.getElem_ofFn hi

theorem getD_roundKey (ks : Schedule) (hr : r ≤ 14) (hi : i < 16) :
    (roundKey ks r).getD i 0#8 = ks[16 * r + i] := by
  have hlen : i < (roundKey ks r).length := by
    rw [roundKey, List.length_take, List.length_drop, Vector.length_toList]
    omega
  rw [List.getD_eq_getElem _ _ hlen]
  simp only [roundKey, List.getElem_take, List.getElem_drop, Vector.getElem_toList]

@[simp] theorem addRoundKey_addRoundKey (s : Block) (ks : Schedule) (r : Nat) :
    addRoundKey (addRoundKey s ks r) ks r = s := by
  refine Vector.ext fun i hi => ?_
  rw [getElem_addRoundKey _ _ _ hi, getElem_addRoundKey _ _ _ hi, BitVec.xor_assoc, BitVec.xor_self, BitVec.xor_zero]

/-! ### `ShiftRows` and its inverse (R135; 42_aes_inv_cipher.md R152) -/

theorem cellAt_shiftRows (s : Block) (r c : Nat) : cellAt (shiftRows s) r c = cellAt s r (c + r) :=
  (cellAt_ofFn (fun r c => cellAt s r (c + r)) r c).trans (cellAt_congr (by omega) (by omega))

/-- To the right by `r` columns is to the left by `3r`, modulo 4. -/
theorem cellAt_invShiftRows (s : Block) (r c : Nat) : cellAt (invShiftRows s) r c = cellAt s r (c + 3 * r) :=
  (cellAt_ofFn (fun r c => cellAt s r (c + 4 - r)) r c).trans (cellAt_congr (by omega) (by omega))

@[simp] theorem invShiftRows_shiftRows (s : Block) : invShiftRows (shiftRows s) = s :=
  block_ext fun r c => by
    rw [cellAt_invShiftRows, cellAt_shiftRows]
    exact cellAt_congr rfl (by omega)

@[simp] theorem shiftRows_invShiftRows (s : Block) : shiftRows (invShiftRows s) = s :=
  block_ext fun r c => by
    rw [cellAt_shiftRows, cellAt_invShiftRows]
    exact cellAt_congr rfl (by omega)

theorem shiftRows_eq (s : Block) : shiftRows s =
    #v[s[0], s[5], s[10], s[15], s[4], s[9], s[14], s[3], s[8], s[13], s[2], s[7], s[12], s[1], s[6], s[11]] :=
  Vector.ext fun i hi => by
    rw [shiftRows, Vector.getElem_ofFn]
    interval_cases i <;> simp [cellAt]

theorem invShiftRows_eq (s : Block) : invShiftRows s =
    #v[s[0], s[13], s[10], s[7], s[4], s[1], s[14], s[11], s[8], s[5], s[2], s[15], s[12], s[9], s[6], s[3]] :=
  Vector.ext fun i hi => by
    rw [invShiftRows, Vector.getElem_ofFn]
    interval_cases i <;> simp [cellAt]

/-! ### `MixColumns` and its inverse (R136; 42_aes_inv_cipher.md R153) -/

variable {m0 m1 m2 m3 : Byte}

/-- Every column times the circulant matrix with first row `m0 m1 m2 m3`. -/
def circulant (m0 m1 m2 m3 : Byte) (s : Block) : Block :=
  Vector.ofFn fun i => mixRow m0 m1 m2 m3 s (i.val % 4) (i.val / 4)

theorem mixColumns_eq (s : Block) : mixColumns s = circulant 2#8 3#8 1#8 1#8 s := rfl

theorem invMixColumns_eq (s : Block) : invMixColumns s = circulant 14#8 11#8 13#8 9#8 s := rfl

theorem mixRow_congr (hr : r % 4 = r' % 4) (hc : c % 4 = c' % 4) :
    mixRow m0 m1 m2 m3 s r c = mixRow m0 m1 m2 m3 s r' c' := by
  have cell (k : Nat) : cellAt s (r + k) c = cellAt s (r' + k) c' := cellAt_congr (by omega) hc
  rw [mixRow, mixRow, cellAt_congr hr hc, cell 1, cell 2, cell 3]

theorem cellAt_circulant (m0 m1 m2 m3 : Byte) (s : Block) (r c : Nat) :
    cellAt (circulant m0 m1 m2 m3 s) r c = mixRow m0 m1 m2 m3 s r c :=
  (cellAt_ofFn (mixRow m0 m1 m2 m3 s) r c).trans (mixRow_congr (Nat.mod_mod ..) (Nat.mod_mod ..))

theorem mixRow_rotate (s : Block) (r c : Nat) : mixRow m0 m1 m2 m3 s (r + 1) c = mixRow m3 m0 m1 m2 s r c := by
  rw [mixRow, mixRow, cellAt_congr (r := r + 1 + 3) (r' := r) (by omega) rfl]
  ac_rfl

theorem gmul_mixRow (m : Byte) (s : Block) (r c : Nat) :
    gmul (mixRow m0 m1 m2 m3 s r c) m = mixRow (gmul m0 m) (gmul m1 m) (gmul m2 m) (gmul m3 m) s r c := by
  simp only [mixRow, gmul_xor_left, gmul_assoc]

theorem mixRow_xor {n0 n1 n2 n3 : Byte} (s : Block) (r c : Nat) :
    mixRow m0 m1 m2 m3 s r c ^^^ mixRow n0 n1 n2 n3 s r c =
      mixRow (m0 ^^^ n0) (m1 ^^^ n1) (m2 ^^^ n2) (m3 ^^^ n3) s r c := by
  simp only [mixRow, gmul_xor_right]
  ac_rfl

/-- The product of two circulant matrices is the circulant matrix of the product of their first rows. -/
theorem circulant_circulant (m0 m1 m2 m3 n0 n1 n2 n3 : Byte) (s : Block) :
    circulant n0 n1 n2 n3 (circulant m0 m1 m2 m3 s) =
      circulant (gmul m0 n0 ^^^ gmul m3 n1 ^^^ gmul m2 n2 ^^^ gmul m1 n3)
        (gmul m1 n0 ^^^ gmul m0 n1 ^^^ gmul m3 n2 ^^^ gmul m2 n3)
        (gmul m2 n0 ^^^ gmul m1 n1 ^^^ gmul m0 n2 ^^^ gmul m3 n3)
        (gmul m3 n0 ^^^ gmul m2 n1 ^^^ gmul m1 n2 ^^^ gmul m0 n3) s :=
  block_ext fun r c => by
    rw [cellAt_circulant, cellAt_circulant, mixRow]
    simp only [cellAt_circulant, mixRow_rotate, gmul_mixRow, mixRow_xor]

@[simp] theorem circulant_identity (s : Block) : circulant 1#8 0#8 0#8 0#8 s = s :=
  block_ext fun r c => by
    simp only [cellAt_circulant, mixRow, gmul_one, gmul_zero, BitVec.xor_zero]

@[simp] theorem invMixColumns_mixColumns (s : Block) : invMixColumns (mixColumns s) = s := by
  rw [invMixColumns_eq, mixColumns_eq, circulant_circulant]
  exact circulant_identity s

@[simp] theorem mixColumns_invMixColumns (s : Block) : mixColumns (invMixColumns s) = s := by
  rw [invMixColumns_eq, mixColumns_eq, circulant_circulant]
  exact circulant_identity s

/-- The four equations of a column. -/
theorem getElem_circulant (m0 m1 m2 m3 : Byte) (s : Block) (h : c < 4) :
    (circulant m0 m1 m2 m3 s)[4 * c] =
      gmul s[4 * c] m0 ^^^ gmul s[4 * c + 1] m1 ^^^ gmul s[4 * c + 2] m2 ^^^ gmul s[4 * c + 3] m3 ∧
    (circulant m0 m1 m2 m3 s)[4 * c + 1] =
      gmul s[4 * c] m3 ^^^ gmul s[4 * c + 1] m0 ^^^ gmul s[4 * c + 2] m1 ^^^ gmul s[4 * c + 3] m2 ∧
    (circulant m0 m1 m2 m3 s)[4 * c + 2] =
      gmul s[4 * c] m2 ^^^ gmul s[4 * c + 1] m3 ^^^ gmul s[4 * c + 2] m0 ^^^ gmul s[4 * c + 3] m1 ∧
    (circulant m0 m1 m2 m3 s)[4 * c + 3] =
      gmul s[4 * c] m1 ^^^ gmul s[4 * c + 1] m2 ^^^ gmul s[4 * c + 2] m3 ^^^ gmul s[4 * c + 3] m0 := by
  have cell (t : Block) (r : Nat) (hr : r < 4) := getElem_eq_cellAt t hr h
  have h0 (t : Block) : t[4 * c] = cellAt t 0 c := cell t 0 (by decide)
  simp only [h0, cell _ 1 (by decide), cell _ 2 (by decide), cell _ 3 (by decide), cellAt_circulant]
  exact ⟨rfl, mixRow_rotate s 0 c, (mixRow_rotate s 1 c).trans (mixRow_rotate s 0 c),
    (mixRow_rotate s 2 c).trans ((mixRow_rotate s 1 c).trans (mixRow_rotate s 0 c))⟩

/-- Settles O45: the layers by their cells; the two matrices are circulant, and so is their product, the identity. -/
theorem linearLayersAreExplicit : Obligations.LinearLayersAreExplicit := by
  refine ⟨fun s ks r i hr hi => ?_, fun s ks r _ => addRoundKey_addRoundKey s ks r,
    fun s => ⟨shiftRows_eq s, invShiftRows_eq s⟩, fun s c h => ?_,
    fun s => ⟨invShiftRows_shiftRows s, shiftRows_invShiftRows s, invMixColumns_mixColumns s,
      mixColumns_invMixColumns s⟩⟩
  · rw [getElem_addRoundKey, getD_roundKey ks hr hi]
  · obtain ⟨f0, f1, f2, f3⟩ := getElem_circulant 2#8 3#8 1#8 1#8 s h
    obtain ⟨i0, i1, i2, i3⟩ := getElem_circulant 14#8 11#8 13#8 9#8 s h
    simp only [gmul_one] at f0 f1 f2 f3
    exact ⟨f0, f1, f2, f3, i0, i1, i2, i3⟩

end Sys2Proof.Machine

/-! The two transforms by their rounds and the commands that run them (O28), and that each undoes the other (O46). -/

namespace Sys2Proof.Machine

variable {s : State}

/-! ### The commands (41_aes_cipher.md R142; 42_aes_inv_cipher.md R155) -/

theorem exec_aesCipher_none (h : s.ksv = false) : exec .aesCipher s = .next (s.raise .noSchedule) := by
  rw [exec_eq, bodyOf, cipherBody_none h]
  rfl

theorem exec_aesCipher (h : s.ksv = true) :
    exec .aesCipher s = .next { s with blk := cipher s.blk s.ks s.nr.toNat, err := 0x00#8 } := by
  rw [exec_eq, bodyOf, cipherBody_ok h]
  rfl

theorem exec_aesInvcipher_none (h : s.ksv = false) : exec .aesInvcipher s = .next (s.raise .noSchedule) := by
  rw [exec_eq, bodyOf, invCipherBody_none h]
  rfl

theorem exec_aesInvcipher (h : s.ksv = true) :
    exec .aesInvcipher s = .next { s with blk := invCipher s.blk s.ks s.nr.toNat, err := 0x00#8 } := by
  rw [exec_eq, bodyOf, invCipherBody_ok h]
  rfl

/-! ### The rounds (41_aes_cipher.md R140; 42_aes_inv_cipher.md R154) -/

/-- The block after `AddRoundKey` with key 0 and the middle rounds 1 to `r`. -/
def cipherAfter (b : Block) (ks : Schedule) (r : Nat) : Block :=
  (List.range' 1 r).foldl (cipherRound ks) (addRoundKey b ks 0)

theorem cipherAfter_succ (b : Block) (ks : Schedule) (r : Nat) :
    cipherAfter b ks (r + 1) = cipherRound ks (cipherAfter b ks r) (r + 1) := by
  rw [cipherAfter, List.range'_1_concat, List.foldl_append, Nat.add_comm 1 r]
  rfl

theorem cipher_eq (b : Block) (ks : Schedule) (nr : Nat) :
    cipher b ks nr = addRoundKey (shiftRows (subBytes (cipherAfter b ks (nr - 1)))) ks nr := rfl

/-- The block after `AddRoundKey` with key `nr` and the inverse rounds `nr - 1` down to `r`. -/
def invCipherDownTo (b : Block) (ks : Schedule) (nr r : Nat) : Block :=
  (List.range' r (nr - r)).reverse.foldl (invCipherRound ks) (addRoundKey b ks nr)

theorem invCipherDownTo_self (b : Block) (ks : Schedule) (nr : Nat) :
    invCipherDownTo b ks nr nr = addRoundKey b ks nr := by
  rw [invCipherDownTo, Nat.sub_self]
  rfl

theorem invCipherDownTo_of_lt (b : Block) (ks : Schedule) {nr r : Nat} (h : r < nr) :
    invCipherDownTo b ks nr r = invCipherRound ks (invCipherDownTo b ks nr (r + 1)) r := by
  rw [invCipherDownTo, show nr - r = nr - (r + 1) + 1 by omega, List.range'_succ, List.reverse_cons, List.foldl_append]
  rfl

theorem invCipher_eq (b : Block) (ks : Schedule) (nr : Nat) :
    invCipher b ks nr = addRoundKey (invSubBytes (invShiftRows (invCipherDownTo b ks nr 1))) ks 0 := rfl

/-- Settles O28: the sequences of blocks are those of the two loops, and the commands end as their pseudocode does. -/
theorem cipherCommandsResult : Obligations.CipherCommandsResult := by
  refine ⟨by decide, by decide, fun b ks nr _ => ⟨⟨cipherAfter b ks, rfl, fun r hr _ => ?_, cipher_eq b ks nr⟩,
    invCipherDownTo b ks nr, invCipherDownTo_self b ks nr, fun r _ hlt => invCipherDownTo_of_lt b ks hlt,
    invCipher_eq b ks nr⟩, ?_, fun s => ⟨fun h => ⟨exec_aesCipher_none h, exec_aesInvcipher_none h⟩,
    fun h => ⟨exec_aesCipher h, exec_aesInvcipher h⟩⟩⟩
  · obtain ⟨r, rfl⟩ := Nat.exists_eq_add_of_le' hr
    exact cipherAfter_succ b ks r
  · exact ⟨by decide +kernel, by decide +kernel, by decide +kernel, by decide +kernel, by decide +kernel,
      by decide +kernel⟩

/-! ### Each transform undoes the other (41_aes_cipher.md R141) -/

@[simp] theorem invSubBytes_subBytes (b : Block) : invSubBytes (subBytes b) = b :=
  Vector.ext fun i hi => by
    rw [getElem_invSubBytes _ hi, getElem_subBytes _ hi, invSbox_sbox]

@[simp] theorem subBytes_invSubBytes (b : Block) : subBytes (invSubBytes b) = b :=
  Vector.ext fun i hi => by
    rw [getElem_subBytes _ hi, getElem_invSubBytes _ hi, sbox_invSbox]

/-- An inverse round and the first half of a round undo the rest of that round and the first half of the next. -/
theorem invCipherRound_of_cipherRound (ks : Schedule) (b : Block) (r : Nat) :
    invCipherRound ks (shiftRows (subBytes (cipherRound ks b r))) r = shiftRows (subBytes b) := by
  simp only [invCipherRound, cipherRound, invShiftRows_shiftRows, invSubBytes_subBytes, addRoundKey_addRoundKey,
    invMixColumns_mixColumns]

theorem cipherRound_of_invCipherRound (ks : Schedule) (b : Block) (r : Nat) :
    cipherRound ks (invSubBytes (invShiftRows (invCipherRound ks b r))) r = invSubBytes (invShiftRows b) := by
  simp only [invCipherRound, cipherRound, subBytes_invSubBytes, shiftRows_invShiftRows, mixColumns_invMixColumns,
    addRoundKey_addRoundKey]

theorem foldl_invCipherRound_of_cipherRounds (ks : Schedule) (rs : List Nat) (b : Block) :
    rs.reverse.foldl (invCipherRound ks) (shiftRows (subBytes (rs.foldl (cipherRound ks) b))) =
      shiftRows (subBytes b) := by
  induction rs generalizing b with
  | nil => rfl
  | cons r rs ih =>
    simp only [List.reverse_cons, List.foldl_append, List.foldl_cons, List.foldl_nil, ih, invCipherRound_of_cipherRound]

theorem foldl_cipherRound_of_invCipherRounds (ks : Schedule) (rs : List Nat) (b : Block) :
    rs.foldl (cipherRound ks) (invSubBytes (invShiftRows (rs.reverse.foldl (invCipherRound ks) b))) =
      invSubBytes (invShiftRows b) := by
  induction rs with
  | nil => rfl
  | cons r rs ih =>
    simp only [List.reverse_cons, List.foldl_append, List.foldl_cons, List.foldl_nil, ih, cipherRound_of_invCipherRound]

@[simp] theorem invCipher_cipher (b : Block) (ks : Schedule) (nr : Nat) : invCipher (cipher b ks nr) ks nr = b := by
  rw [cipher, invCipher, addRoundKey_addRoundKey, foldl_invCipherRound_of_cipherRounds, invShiftRows_shiftRows,
    invSubBytes_subBytes, addRoundKey_addRoundKey]

@[simp] theorem cipher_invCipher (b : Block) (ks : Schedule) (nr : Nat) : cipher (invCipher b ks nr) ks nr = b := by
  rw [cipher, invCipher, addRoundKey_addRoundKey, foldl_cipherRound_of_invCipherRounds, subBytes_invSubBytes,
    shiftRows_invShiftRows, addRoundKey_addRoundKey]

/-- Settles O46: each inverse round undoes its round, in reverse order, and the commands run the two transforms. -/
theorem inverseCipherUndoesCipher : Obligations.InverseCipherUndoesCipher := by
  refine ⟨fun b ks nr => ⟨invCipher_cipher b ks nr, cipher_invCipher b ks nr⟩,
    fun s h => ⟨⟨_, exec_aesCipher h, ?_⟩, ⟨_, exec_aesInvcipher h, ?_⟩⟩⟩
  · rw [exec_aesInvcipher (by exact h), invCipher_cipher]
  · rw [exec_aesCipher (by exact h), cipher_invCipher]

end Sys2Proof.Machine

/-! The Hash Engine: padding (O47), whole blocks and known answers (O48), and the three commands (O29, O30, O49). -/

namespace Sys2Proof.Machine

variable {s : State} {m b : List Byte} {j k : Nat}

/-! ### Little-endian words (43_md5.md R168, R175) -/

@[simp] theorem length_le32 (v : Word) : (le32 v).length = 4 := rfl

theorem getD_le32 (v : Word) (hk : k < 4) : (le32 v).getD k 0#8 = BitVec.ofNat 8 (v.toNat / 256 ^ k) := by
  have byte (i : Nat) : v.extractLsb' (8 * i) 8 = BitVec.ofNat 8 (v.toNat / 256 ^ i) := by
    rw [BitVec.extractLsb', Nat.shiftRight_eq_div_pow, Nat.pow_mul]
  interval_cases k
  exacts [byte 0, byte 1, byte 2, byte 3]

/-- The four bytes of a word, put together again, are the word. -/
theorem ofLe32_extractLsb' (v : Word) :
    ofLe32 (v.extractLsb' 0 8) (v.extractLsb' 8 8) (v.extractLsb' 16 8) (v.extractLsb' 24 8) = v := by
  rw [ofLe32, BitVec.extractLsb'_append_extractLsb'_eq_extractLsb' (by rfl),
    BitVec.extractLsb'_append_extractLsb'_eq_extractLsb' (by rfl),
    BitVec.extractLsb'_append_extractLsb'_eq_extractLsb' (by rfl)]
  exact BitVec.extractLsb'_eq_self

/-- The words of the digest, read little-endian, are the hash words. -/
theorem md5Word_md5Bytes (h : Vector Word 4) (hk : k < 4) : md5Word (md5Bytes h) k = h[k] := by
  interval_cases k <;> exact ofLe32_extractLsb' _

/-! ### Padding to whole blocks (R167) -/

/-- A message padded to whole blocks: the byte 0x80, zero bytes, and a tail that holds the bit length. -/
def blockPad (m tail : List Byte) : List Byte :=
  m ++ 0x80#8 :: (List.replicate ((119 - m.length % 64) % 64) 0x00#8 ++ tail)

section BlockPad

variable {tail : List Byte} (ht : tail.length = 8)
include ht

theorem length_blockPad : (blockPad m tail).length = m.length + 1 + (119 - m.length % 64) % 64 + 8 := by
  simp only [blockPad, List.length_append, List.length_cons, List.length_replicate, ht]
  omega

/-- One block more than the whole blocks of the message, or two where the length does not fit in the first. -/
theorem length_blockPad_eq_blocks :
    (blockPad m tail).length = 64 * (m.length / 64 + if m.length % 64 ≤ 55 then 1 else 2) := by
  rw [length_blockPad ht]
  split <;> omega

theorem getD_blockPad_zero (hm : m.length < j) (hj : j < (blockPad m tail).length - 8) :
    (blockPad m tail).getD j 0#8 = 0x00#8 := by
  obtain ⟨i, rfl⟩ : ∃ i, j = m.length + (i + 1) := ⟨j - m.length - 1, by omega⟩
  rw [length_blockPad ht] at hj
  have hi : i < (119 - m.length % 64) % 64 := by omega
  rw [blockPad, List.getD_append_right _ _ _ _ (Nat.le_add_right ..), Nat.add_sub_cancel_left, List.getD_cons_succ,
    List.getD_append _ _ _ _ (by rwa [List.length_replicate]), List.getD_replicate _ hi]

theorem getD_blockPad_tail (k : Nat) :
    (blockPad m tail).getD ((blockPad m tail).length - 8 + k) 0#8 = tail.getD k 0#8 := by
  have hp : (blockPad m tail).length - 8 + k = m.length + ((119 - m.length % 64) % 64 + k + 1) := by
    rw [length_blockPad ht]
    omega
  rw [hp, blockPad, List.getD_append_right _ _ _ _ (Nat.le_add_right ..), Nat.add_sub_cancel_left, List.getD_cons_succ,
    List.getD_append_right _ _ _ _ (by rw [List.length_replicate]; omega), List.length_replicate,
    Nat.add_sub_cancel_left]

end BlockPad

@[simp] theorem take_blockPad (m tail : List Byte) : (blockPad m tail).take m.length = m := List.take_left

@[simp] theorem getD_blockPad_length (m tail : List Byte) : (blockPad m tail).getD m.length 0#8 = 0x80#8 := by
  rw [blockPad, List.getD_append_right _ _ _ _ le_rfl, Nat.sub_self, List.getD_cons_zero]

/-- The tail of a padded message of `n` bytes: the bit length as two little-endian words, the high-order word zero. -/
def md5LengthField (n : Nat) : List Byte := le32 (BitVec.ofNat 32 (8 * n)) ++ List.replicate 4 0x00#8

@[simp] theorem length_md5LengthField (n : Nat) : (md5LengthField n).length = 8 := rfl

/-- The bit length of a message below 2^29 bytes fits in the low-order word. -/
theorem getD_md5LengthField_low {n : Nat} (hn : n < 2 ^ 29) (hk : k < 4) :
    (md5LengthField n).getD k 0#8 = BitVec.ofNat 8 (8 * n / 256 ^ k) := by
  rw [md5LengthField, List.getD_append _ _ _ _ (by rwa [length_le32]), getD_le32 _ hk, BitVec.toNat_ofNat,
    Nat.mod_eq_of_lt (by omega)]

theorem getD_md5LengthField_high (n : Nat) (hk : k < 4) : (md5LengthField n).getD (4 + k) 0#8 = 0x00#8 := by
  rw [md5LengthField, List.getD_append_right _ _ _ _ (Nat.le_add_right 4 k), length_le32, Nat.add_sub_cancel_left,
    List.getD_replicate _ hk]

theorem md5Pad_eq (m : List Byte) : md5Pad m = blockPad m (md5LengthField m.length) := by
  simp [md5Pad, blockPad, md5LengthField]

/-- Settles O47, from the layout of every padding to whole blocks and the two words of the bit length. -/
theorem md5PaddingLayout : Obligations.Md5PaddingLayout := by
  intro m hm
  have htail := length_md5LengthField m.length
  rw [md5Pad_eq]
  refine ⟨length_blockPad_eq_blocks htail, take_blockPad m _, getD_blockPad_length m _,
    fun j hj hlt => getD_blockPad_zero htail hj hlt, fun k hk => ⟨?_, ?_⟩⟩
  · rw [getD_blockPad_tail htail, getD_md5LengthField_low hm hk]
  · have hpos (p : Nat) (hp : 8 ≤ p) : p - 4 + k = p - 8 + (4 + k) := by omega
    rw [hpos _ (by rw [length_blockPad htail]; omega), getD_blockPad_tail htail, getD_md5LengthField_high _ hk]

/-! ### Blocks (R168, R175, R176) -/

theorem blocks64_append_block (hm : m.length % 64 = 0) (hb : b.length = 64) :
    blocks64 (m ++ b) = blocks64 m ++ [b] := by
  obtain ⟨n, hn⟩ : ∃ n, m.length = 64 * n := ⟨m.length / 64, by omega⟩
  have hlen : (m ++ b).length / 64 = n + 1 := by
    rw [List.length_append, hn, hb]
    omega
  have hold (q : Nat) (hq : q ∈ List.range n) : ((m ++ b).drop (64 * q)).take 64 = (m.drop (64 * q)).take 64 := by
    have hq := List.mem_range.mp hq
    rw [List.drop_append_of_le_length (by omega), List.take_append_of_le_length (by rw [List.length_drop]; omega)]
  have hnew : ((m ++ b).drop (64 * n)).take 64 = b := by
    rw [← hn, List.drop_left, ← hb, List.take_length]
  rw [blocks64, blocks64, hlen, hn, Nat.mul_div_cancel_left n (by decide), List.range_succ, List.map_append,
    List.map_congr_left hold, List.map_singleton, hnew]

theorem blocks64_of_length (hb : b.length = 64) : blocks64 b = [b] := blocks64_append_block (m := []) rfl hb

/-- The padding of a message of whole blocks is one block. -/
theorem md5Pad_of_whole_blocks (hm : m.length % 64 = 0) :
    md5Pad m = m ++ (0x80#8 :: List.replicate 55 0x00#8 ++ md5LengthField m.length) := by
  rw [md5Pad_eq, blockPad, hm, List.cons_append]

theorem md5Hash_of_whole_blocks (hm : m.length % 64 = 0) :
    md5Hash m = md5Block ((blocks64 m).foldl md5Block md5Iv)
      (0x80#8 :: List.replicate 55 0x00#8 ++ md5LengthField m.length) := by
  rw [md5Hash, md5Pad_of_whole_blocks hm, blocks64_append_block hm rfl, List.foldl_append, List.foldl_cons,
    List.foldl_nil]

theorem md5Hash_of_short (hm : m.length ≤ 55) : md5Hash m = md5Block md5Iv (md5Pad m) := by
  have hlen : (md5Pad m).length = 64 := by
    rw [md5Pad_eq, length_blockPad (length_md5LengthField _)]
    omega
  rw [md5Hash, blocks64_of_length hlen, List.foldl_cons, List.foldl_nil]

/-- Settles O48: the padding of whole blocks is the last block; the known answers are computed. -/
theorem md5WholeBlocksThenPadding : Obligations.Md5WholeBlocksThenPadding := by
  refine ⟨fun m hm _ => ?_, by decide +kernel, by decide +kernel⟩
  rw [md5Hash_of_whole_blocks hm, md5LengthField, List.append_assoc]

/-! ### The commands (R181 to R183) -/

theorem exec_md5Init (s : State) : exec .md5Init s = .next { s with h := md5Iv, err := 0x00#8 } := exec_eq .md5Init s

theorem exec_md5Block (s : State) :
    exec .md5Block s = .next { s with h := md5Block s.h (s.bin.readPrefix 64), err := 0x00#8 } := exec_eq .md5Block s

/-- Settles O29, from the two commands' pseudocode. -/
theorem md5InitAndBlockResult : Obligations.Md5InitAndBlockResult :=
  ⟨by decide, by decide, fun s => ⟨exec_md5Init s, exec_md5Block s⟩⟩

theorem exec_md5Digest_invalid (h : 2 ^ 29 ≤ s.binlen.toNat) :
    exec .md5Digest s = .next (s.raise .invalidInput) := by
  rw [exec_eq, bodyOf, md5DigestBody_invalid h]
  rfl

theorem exec_md5Digest_long (h : s.binlen.toNat < 2 ^ 29) (hl : s.params.bufBytes < s.binlen.toNat) :
    exec .md5Digest s = .next (s.raise .bufferOverflow) := by
  rw [exec_eq, bodyOf, md5DigestBody_long h hl]
  rfl

theorem exec_md5Digest (h : s.binlen.toNat < 2 ^ 29) (hl : s.binlen.toNat ≤ s.params.bufBytes) :
    exec .md5Digest s = .next { s with
      h := md5Hash (s.bin.readPrefix s.binlen.toNat),
      bout := s.bout.writePrefix (md5Sum (s.bin.readPrefix s.binlen.toNat)), boutlen := 16#32, err := 0x00#8 } := by
  rw [exec_eq, bodyOf, md5DigestBody_ok h hl]
  rfl

/-- Settles O30: the faults are those of the pseudocode, and the digest holds the hash words. -/
theorem md5DigestResult : Obligations.Md5DigestResult :=
  ⟨by decide, fun _ => ⟨exec_md5Digest_invalid, exec_md5Digest_long, fun h hl =>
    ⟨_, exec_md5Digest h hl, rfl, length_md5Sum _, Memory.read_writePrefix _ _,
      fun _ hk => (md5Word_md5Bytes _ hk).symm⟩⟩⟩

/-- Settles O49: the padding of a message of at most 55 bytes is one block, and `MD5.DIGEST` compresses just that. -/
theorem md5BlockByBlockEqualsDigest : Obligations.Md5BlockByBlockEqualsDigest := by
  intro s d m hm hpad hlen hread hfits
  have hdigest := exec_md5Digest (s := d) (by omega) (by omega)
  refine ⟨_, _, _, exec_md5Init s, exec_md5Block _, hdigest, rfl, ?_⟩
  show md5Block md5Iv (s.bin.readPrefix 64) = md5Hash (d.bin.readPrefix d.binlen.toNat)
  rw [hpad, hlen, hread, md5Hash_of_short hm]

end Sys2Proof.Machine

/-! Counter mode: the increment as addition, the keystream byte for byte, and the two commands (O31, O32, O50, O51). -/

namespace Sys2Proof.Machine

variable {s t : State} {cb : Block} {ks : Schedule} {nr : Nat} {m n out out' : List Byte}

/-! ### The increment (44_ctr.md R190, R191) -/

@[simp] theorem length_incrementBytes (bs : List Byte) : (incrementBytes bs).length = bs.length := by
  induction bs with
  | nil => rfl
  | cons b bs ih =>
    rw [incrementBytes]
    split
    · exact congrArg Nat.succ ih
    · rfl

theorem ofDigits_toNat_lt (bs : List Byte) : Nat.ofDigits 256 (bs.map BitVec.toNat) < 256 ^ bs.length := by
  refine (Nat.ofDigits_lt_base_pow_length (by decide) fun d hd => ?_).trans_eq (by rw [List.length_map])
  obtain ⟨b, -, rfl⟩ := List.mem_map.mp hd
  exact b.isLt

/-- The carry loop adds 1: it passes a byte that wraps, and stops at one that does not. -/
theorem ofDigits_incrementBytes (bs : List Byte) :
    Nat.ofDigits 256 ((incrementBytes bs).map BitVec.toNat) =
      (Nat.ofDigits 256 (bs.map BitVec.toNat) + 1) % 256 ^ bs.length := by
  induction bs with
  | nil => rfl
  | cons b bs ih =>
    rw [incrementBytes, List.map_cons, Nat.ofDigits_cons, List.length_cons, Nat.pow_succ']
    split
    case isTrue hwrap =>
      have hb : b.toNat = 255 := by bv_omega
      rw [List.map_cons, Nat.ofDigits_cons, ih, BitVec.toNat_zero, Nat.zero_add, ← Nat.mul_mod_mul_left, hb]
      congr 1
      omega
    case isFalse hstop =>
      have hb : (b + 1#8).toNat = b.toNat + 1 := by bv_omega
      have hlt := ofDigits_toNat_lt bs
      rw [List.map_cons, Nat.ofDigits_cons, hb, Nat.mod_eq_of_lt (by omega)]
      omega

/-- The bytes of a Counter Block, read from the last one, are the digits of its value. -/
theorem counterValue_eq_ofDigits (cb : Block) :
    counterValue cb = Nat.ofDigits 256 (cb.toList.reverse.map BitVec.toNat) := by
  rw [counterValue, Nat.ofDigits_eq_foldr, List.foldr_map, List.foldr_reverse]
  congr 1
  funext v b
  exact Nat.add_comm ..

theorem reverse_toList_ctrInc (cb : Block) : (ctrInc cb).toList.reverse = incrementBytes cb.toList.reverse := by
  rw [ctrInc, toList_padTo_of_length (by simp), List.reverse_reverse]

theorem counterValue_ctrInc (cb : Block) : counterValue (ctrInc cb) = (counterValue cb + 1) % 2 ^ 128 := by
  rw [counterValue_eq_ofDigits, reverse_toList_ctrInc, ofDigits_incrementBytes, ← counterValue_eq_ofDigits,
    List.length_reverse, Vector.length_toList, show 256 ^ 16 = 2 ^ 128 by rfl]

/-- Settles O31: the carry loop adds 1 to the number whose digits are the bytes. -/
theorem ctrIncResult : Obligations.CtrIncResult :=
  ⟨by decide, fun s => ⟨_, exec_eq .ctrInc s, rfl, counterValue_ctrInc s.ctrblk⟩⟩

/-! ### The keystream (R192) -/

/-- The keystream from `q` blocks on. -/
theorem keystreamByte_iterate (cb : Block) (ks : Schedule) (nr q j : Nat) :
    keystreamByte (ctrInc^[q] cb) ks nr j = keystreamByte cb ks nr (16 * q + j) := by
  rw [keystreamByte, keystreamByte, ← Function.iterate_add_apply, Nat.mul_add_mod, Nat.mul_add_div (by decide),
    Nat.add_comm]

theorem IsCtrOutput.length_eq (h : IsCtrOutput cb ks nr m out) : out.length = m.length := And.left h

/-- The message decides the output. -/
theorem IsCtrOutput.unique (h : IsCtrOutput cb ks nr m out) (h' : IsCtrOutput cb ks nr m out') : out = out' := by
  obtain ⟨hl, hb⟩ := h
  obtain ⟨hl', hb'⟩ := h'
  refine List.ext_getElem (hl.trans hl'.symm) fun j hj hj' => ?_
  rw [← List.getD_eq_getElem _ 0#8, ← List.getD_eq_getElem _ 0#8, hb j (hl ▸ hj), hb' j (hl ▸ hj)]

/-- "CTR encryption and decryption are the identical operation": XOR with the same keystream undoes itself. -/
theorem IsCtrOutput.symm (h : IsCtrOutput cb ks nr m out) : IsCtrOutput cb ks nr out m := by
  obtain ⟨hl, hb⟩ := h
  refine ⟨hl.symm, fun j hj => ?_⟩
  rw [hb j (hl ▸ hj), BitVec.xor_assoc, BitVec.xor_self, BitVec.xor_zero]

/-- A first piece of `q` whole blocks, then a piece under the keystream from `q` blocks on. -/
theorem IsCtrOutput.append {q : Nat} (hm : m.length = 16 * q) (h : IsCtrOutput cb ks nr m out)
    (h' : IsCtrOutput (ctrInc^[q] cb) ks nr n out') : IsCtrOutput cb ks nr (m ++ n) (out ++ out') := by
  obtain ⟨hl, hb⟩ := h
  obtain ⟨hl', hb'⟩ := h'
  refine ⟨by rw [List.length_append, List.length_append, hl, hl'], fun j hj => ?_⟩
  rw [List.length_append] at hj
  rcases Nat.lt_or_ge j m.length with hlt | hge
  · rw [List.getD_append _ _ _ _ (hl ▸ hlt), List.getD_append _ _ _ _ hlt, hb j hlt]
  · obtain ⟨i, rfl⟩ := Nat.exists_eq_add_of_le hge
    rw [List.getD_append_right _ _ _ _ (hl ▸ hge), List.getD_append_right _ _ _ _ hge, hl, Nat.add_sub_cancel_left,
      hb' i (by omega), keystreamByte_iterate, hm]

/-! ### `CtrXform` (R192) -/

/-- One turn of the loop: at most a block, under the keystream's first block. -/
theorem isCtrOutput_xorBytes (hm : m.length ≤ 16) :
    IsCtrOutput cb ks nr m (xorBytes m (cipher cb ks nr).toList) := by
  have hl : (xorBytes m (cipher cb ks nr).toList).length = m.length := by
    rw [xorBytes, List.length_zipWith, Vector.length_toList, Nat.min_eq_left hm]
  refine ⟨hl, fun j hj => ?_⟩
  have hj16 : j < 16 := hj.trans_le hm
  rw [keystreamByte, Nat.div_eq_of_lt hj16, Nat.mod_eq_of_lt hj16, Function.iterate_zero_apply,
    List.getD_eq_getElem _ _ (hl ▸ hj), List.getD_eq_getElem _ _ hj, List.getD_eq_getElem _ _ (by simpa using hj16)]
  exact List.getElem_zipWith

/-- The loop over enough blocks for the message. -/
theorem isCtrOutput_ctrBlocks (ks : Schedule) (nr k : Nat) (cb : Block) (m : List Byte) (h : m.length ≤ 16 * k) :
    IsCtrOutput cb ks nr m (ctrBlocks ks nr k cb m).1 := by
  induction k generalizing cb m with
  | zero => exact ⟨(Nat.le_zero.mp h).symm, fun j hj => absurd (hj.trans_le h) (Nat.not_lt_zero j)⟩
  | succ k ih =>
    have hrest := ih (ctrInc cb) (m.drop 16) (by rw [List.length_drop]; omega)
    rw [ctrBlocks]
    rcases Nat.lt_or_ge m.length 16 with hlt | hge
    · rw [List.drop_of_length_le hlt.le] at hrest ⊢
      rw [List.length_eq_zero_iff.mp hrest.length_eq, List.append_nil, List.take_of_length_le hlt.le]
      exact isCtrOutput_xorBytes hlt.le
    · have hfirst : (m.take 16).length = 16 := by rw [List.length_take, Nat.min_eq_left hge]
      have h := (isCtrOutput_xorBytes hfirst.le).append (q := 1) hfirst hrest
      rwa [List.take_append_drop] at h

theorem isCtrOutput_ctrXform (cb : Block) (m : List Byte) (ks : Schedule) (nr : Nat) :
    IsCtrOutput cb ks nr m (ctrXform cb m ks nr).1 :=
  isCtrOutput_ctrBlocks ks nr _ cb m (by omega)

theorem ctrBlocks_counter (ks : Schedule) (nr k : Nat) (cb : Block) (m : List Byte) :
    (ctrBlocks ks nr k cb m).2 = ctrInc^[k] cb := by
  induction k generalizing cb m with
  | zero => rfl
  | succ k ih => exact ih (ctrInc cb) (m.drop 16)

/-- The Counter Block is incremented once for each block of the message, a last partial one included. -/
theorem ctrXform_counter (cb : Block) (m : List Byte) (ks : Schedule) (nr : Nat) :
    (ctrXform cb m ks nr).2 = ctrInc^[(m.length + 15) / 16] cb :=
  ctrBlocks_counter ks nr _ cb m

@[simp] theorem ctrXform_ctrXform (cb : Block) (m : List Byte) (ks : Schedule) (nr : Nat) :
    (ctrXform cb (ctrXform cb m ks nr).1 ks nr).1 = m :=
  (isCtrOutput_ctrXform ..).unique (isCtrOutput_ctrXform ..).symm

/-- Settles O50: a first piece of whole blocks leaves the counter at which the keystream of the second begins. -/
theorem ctrXformInPieces : Obligations.CtrXformInPieces := by
  intro cb ks nr m n hm
  obtain ⟨q, hq⟩ := Nat.dvd_of_mod_eq_zero hm
  have hcounter : (ctrXform cb m ks nr).2 = ctrInc^[q] cb := by
    rw [ctrXform_counter]
    congr 1
    omega
  have hblocks : ((m ++ n).length + 15) / 16 = (n.length + 15) / 16 + q := by
    rw [List.length_append]
    omega
  rw [hcounter]
  constructor
  · exact (isCtrOutput_ctrXform ..).unique ((isCtrOutput_ctrXform ..).append hq (isCtrOutput_ctrXform ..))
  · rw [ctrXform_counter, ctrXform_counter, hblocks, Function.iterate_add_apply]

/-! ### `CTR.XFORM` (R193) -/

theorem exec_ctrXform_none (h : s.ksv = false) : exec .ctrXform s = .next (s.raise .noSchedule) := by
  rw [exec_eq, bodyOf, ctrXformBody_none h]
  rfl

theorem exec_ctrXform_long (h : s.ksv = true) (hl : s.params.bufBytes < s.binlen.toNat) :
    exec .ctrXform s = .next (s.raise .bufferOverflow) := by
  rw [exec_eq, bodyOf, ctrXformBody_long h hl]
  rfl

/-- What `CTR.XFORM` puts out where it completes. -/
def State.ctrOutput (s : State) : List Byte :=
  (ctrXform s.ctrblk (s.bin.readPrefix s.binlen.toNat) s.ks s.nr.toNat).1

@[simp] theorem length_ctrOutput (s : State) : s.ctrOutput.length = s.binlen.toNat := by
  rw [State.ctrOutput, length_ctrXform, Memory.length_readPrefix]

/-- The state in which `CTR.XFORM` completes. -/
def State.afterCtrXform (s : State) : State :=
  { s with
    ctrblk := ctrInc^[(s.binlen.toNat + 15) / 16] s.ctrblk, bout := s.bout.writePrefix s.ctrOutput,
    boutlen := s.binlen, err := 0x00#8 }

theorem exec_ctrXform (h : s.ksv = true) (hl : s.binlen.toNat ≤ s.params.bufBytes) :
    exec .ctrXform s = .next s.afterCtrXform := by
  have hlen : BitVec.ofNat 32 s.ctrOutput.length = s.binlen := by
    rw [length_ctrOutput, BitVec.ofNat_toNat, BitVec.setWidth_eq]
  have hcounter := ctrXform_counter s.ctrblk (s.bin.readPrefix s.binlen.toNat) s.ks s.nr.toNat
  rw [Memory.length_readPrefix] at hcounter
  rw [exec_eq, bodyOf, ctrXformBody_ok h hl, hcounter, conclude_ok, State.emitBytes, ← State.ctrOutput, hlen]
  rfl

/-- Settles O32: the faults are those of the pseudocode, and the output is the message under the keystream. -/
theorem ctrXformResult : Obligations.CtrXformResult := by
  exact ⟨by decide, fun s => ⟨exec_ctrXform_none, exec_ctrXform_long, fun h hl =>
    ⟨_, s.ctrOutput, exec_ctrXform h hl, rfl, rfl, isCtrOutput_ctrXform .., Memory.read_writePrefix _ _⟩⟩⟩

/-- `CTR.XFORM` leaves `ERR` zero only where neither of its tests failed. -/
theorem ctrXform_tests_of_err_zero (h : exec .ctrXform s = .next t) (he : t.err = 0x00#8) :
    s.ksv = true ∧ s.binlen.toNat ≤ s.params.bufBytes := by
  obtain ⟨u, hc, -⟩ | ⟨f, rfl⟩ := exec_cases h
  · cases hc with
    | ctrXform valid fits => exact ⟨valid, fits⟩
  · exact absurd he (faultCode_ne_zero f)

theorem readPrefix_writePrefix_ctrOutput (buf : Memory 8) (s : State) :
    (buf.writePrefix s.ctrOutput).readPrefix s.binlen.toNat = s.ctrOutput := by
  rw [← length_ctrOutput s, Memory.readPrefix_writePrefix]

@[simp] theorem outputBytes_afterCtrXform (s : State) : s.afterCtrXform.outputBytes = s.ctrOutput :=
  readPrefix_writePrefix_ctrOutput s.bout s

/-- The output copied to `BIN`, under the start counter, gives the message. -/
theorem ctrOutput_copyBytesBack (s : State) :
    State.ctrOutput { s.afterCtrXform.copyBytesBack with ctrblk := s.ctrblk } = s.bin.readPrefix s.binlen.toNat := by
  have hbin : s.afterCtrXform.copyBytesBack.bin.readPrefix s.binlen.toNat = s.ctrOutput := by
    rw [State.copyBytesBack, outputBytes_afterCtrXform, readPrefix_writePrefix_ctrOutput]
  refine Eq.trans ?_ (ctrXform_ctrXform s.ctrblk (s.bin.readPrefix s.binlen.toNat) s.ks s.nr.toNat)
  exact congrArg (fun m => (ctrXform s.ctrblk m s.ks s.nr.toNat).1) hbin

/-- Settles O51: the second run passes the same tests, and its message is the output of the first. -/
theorem ctrXformTwiceRestores : Obligations.CtrXformTwiceRestores := by
  intro s t _ h he
  obtain ⟨hv, hl⟩ := ctrXform_tests_of_err_zero h he
  cases h.symm.trans (exec_ctrXform hv hl)
  refine ⟨_, exec_ctrXform hv hl, rfl, ?_, rfl⟩
  rw [outputBytes_afterCtrXform, ctrOutput_copyBytesBack]

end Sys2Proof.Machine

/-! Bits of a word as numbers, what `exec` answers from the end of the pseudocode, and the hexadecimal codec (O37). -/

namespace Sys2Proof.Machine

variable {s : State}

/-! ### Bits of a word as numbers -/

theorem extractLsb'_eq_ofNat_div {w : Nat} (v : BitVec w) (i n : Nat) :
    v.extractLsb' i n = BitVec.ofNat n (v.toNat / 2 ^ i) := by
  rw [BitVec.extractLsb', Nat.shiftRight_eq_div_pow]

theorem toNat_extractLsb'_eq {w : Nat} (v : BitVec w) (i n : Nat) :
    (v.extractLsb' i n).toNat = v.toNat / 2 ^ i % 2 ^ n := by
  rw [BitVec.extractLsb'_toNat, Nat.shiftRight_eq_div_pow]

theorem extractLsb'_eq_of_div_mod {w i n : Nat} {v : BitVec w} {p : BitVec n} (h : v.toNat / 2 ^ i % 2 ^ n = p.toNat) :
    v.extractLsb' i n = p :=
  BitVec.eq_of_toNat_eq ((toNat_extractLsb'_eq v i n).trans h)

/-- Where the `m` low bits are zero, so are those from `i` on that lie below `m`. -/
theorem extractLsb'_eq_zero_of_le {w m i n : Nat} {v : BitVec w} (h : v.extractLsb' 0 m = 0#m) (hle : i + n ≤ m) :
    v.extractLsb' i n = 0#n := by
  ext j hj
  have hbit := congrArg (BitVec.getLsbD · (i + j)) h
  simpa [show i + j < m by omega, hj] using hbit

/-! ### What `exec` answers, from the end of the pseudocode (60_exceptions.md R280) -/

theorem exec_of_body_error {i : Instr} {f : CmdFault} (h : bodyOf i s = .error f) :
    exec i s = .next ((startOf i s).raise f) := by
  rw [exec_eq, h, conclude_error]

/-- A computation that fails in one way only has that fault wherever it gives nothing. -/
theorem eq_error_of_forall_ne_ok {α : Type} {r : Except CmdFault α} {f : CmdFault} (hf : ∀ {g}, r = .error g → g = f)
    (h : ∀ a, r ≠ .ok a) : r = .error f := by
  cases r with
  | ok a => exact absurd rfl (h a)
  | error g => rw [hf rfl]

theorem exec_of_body_ok {i : Instr} {t : State} (h : bodyOf i s = .ok t) : exec i s = .next t.complete := by
  rw [exec_eq, h, conclude_ok]

/-! ### Hexadecimal (45_codecs.md R218, R219) -/

theorem hexChar_eq_hexDigit : ∀ v : BitVec 4, hexChar v = hexDigit v.toNat := by decide

theorem hexChar_high (x : Byte) : hexChar (x.extractLsb' 4 4) = hexDigit (x.toNat / 16) := by
  have hx := x.isLt
  rw [hexChar_eq_hexDigit, toNat_extractLsb'_eq, Nat.mod_eq_of_lt (by omega)]
  rfl

theorem hexChar_low (x : Byte) : hexChar (x.extractLsb' 0 4) = hexDigit (x.toNat % 16) := by
  rw [hexChar_eq_hexDigit, toNat_extractLsb'_eq, Nat.pow_zero, Nat.div_one]
  rfl

/-- The two digits of byte `i` stand at `2i` and `2i + 1`. -/
theorem getD_hexEncode {b : List Byte} {i : Nat} (h : i < b.length) :
    (hexEncode b).getD (2 * i) 0#32 = hexDigit ((b.getD i 0#8).toNat / 16) ∧
    (hexEncode b).getD (2 * i + 1) 0#32 = hexDigit ((b.getD i 0#8).toNat % 16) := by
  induction b generalizing i with
  | nil => cases h
  | cons x b ih =>
    cases i with
    | zero => exact ⟨hexChar_high x, hexChar_low x⟩
    | succ i => exact ih (Nat.lt_of_succ_lt_succ h)

theorem exec_hexEnc_overflow (h : s.params.bufBytes < s.binlen.toNat ∨ s.params.bufCps < 2 * s.binlen.toNat) :
    exec .hexEnc s = .next (s.raise .bufferOverflow) := by
  refine exec_of_body_error (i := .hexEnc) ?_
  rcases Nat.lt_or_ge s.params.bufBytes s.binlen.toNat with hl | hl
  · exact hexEncBody_long hl
  · exact hexEncBody_full hl (h.resolve_left (Nat.not_lt.mpr hl))

theorem exec_hexEnc (hl : s.binlen.toNat ≤ s.params.bufBytes) (ho : 2 * s.binlen.toNat ≤ s.params.bufCps) :
    exec .hexEnc s = .next (s.emitText (hexEncode (s.bin.readPrefix s.binlen.toNat))).complete :=
  exec_of_body_ok (i := .hexEnc) (hexEncBody_ok hl ho)

/-- Settles O37: the text put out has the digits of byte `i` at `2i` and `2i + 1`, and what stood beyond it is kept. -/
theorem hexEncResult : Obligations.HexEncResult := by
  refine ⟨by decide, fun s => ⟨exec_hexEnc_overflow, fun hl ho =>
    ⟨_, exec_hexEnc hl ho, ?_, fun i hi => ?_, fun i hi => ?_⟩⟩⟩
  · rw [State.emitText, length_hexEncode, Memory.length_readPrefix]
    rfl
  · have hdigits := getD_hexEncode (b := s.bin.readPrefix s.binlen.toNat) (i := i) (by simpa using hi)
    rw [Memory.getD_readPrefix, if_pos hi] at hdigits
    rw [complete_tout, emitText_read, emitText_read, length_hexEncode, Memory.length_readPrefix,
      if_pos (by omega), if_pos (by omega)]
    exact hdigits
  · rw [complete_tout, emitText_read, length_hexEncode, Memory.length_readPrefix, if_neg (by omega)]

end Sys2Proof.Machine

/-! The Base64 codec (O35, O36, O54, O55). -/

namespace Sys2Proof.Machine

variable {s : State}

/-! ### The Base64 alphabet (45_codecs.md R210) -/

@[simp] theorem b64Val_b64Char : ∀ v : BitVec 6, b64Val (b64Char v) = some v := by decide

theorem b64Char_of_b64Val_eq_some {c : Word} {v : BitVec 6} (h : b64Val c = some v) : b64Char v = c := by
  unfold b64Val at h
  split at h
  · obtain rfl := Option.some.inj h
    rw [b64Char, if_pos (by bv_omega)]
    bv_omega
  split at h
  · obtain rfl := Option.some.inj h
    rw [b64Char, if_neg (by bv_omega), if_pos (by bv_omega)]
    bv_omega
  split at h
  · obtain rfl := Option.some.inj h
    rw [b64Char, if_neg (by bv_omega), if_neg (by bv_omega), if_pos (by bv_omega)]
    bv_omega
  split at h
  · rename_i hc
    cases h
    exact hc.symm
  split at h
  · rename_i hc
    cases h
    exact hc.symm
  · cases h

theorem b64Val_eq_some_iff {c : Word} {v : BitVec 6} : b64Val c = some v ↔ b64Char v = c :=
  ⟨b64Char_of_b64Val_eq_some, fun h => h ▸ b64Val_b64Char v⟩

/-- Settles O54: the 64 characters are computed, and the two maps are inverse on them. -/
theorem base64AlphabetIsStandard : Obligations.Base64AlphabetIsStandard :=
  ⟨by decide, fun _ _ => b64Val_eq_some_iff⟩

/-! ### Base64: 24 bits as four characters and as three bytes (45_codecs.md R211, R213) -/

theorem b64Quad_eq (v : BitVec 24) : b64Quad v =
    [b64Char (BitVec.ofNat 6 (v.toNat / 2 ^ 18)), b64Char (BitVec.ofNat 6 (v.toNat / 2 ^ 12)),
      b64Char (BitVec.ofNat 6 (v.toNat / 2 ^ 6)), b64Char (BitVec.ofNat 6 v.toNat)] := by
  simp only [b64Quad, extractLsb'_eq_ofNat_div, Nat.pow_zero, Nat.div_one]

theorem toNat_append_bytes (x y z : Byte) : (x ++ y ++ z).toNat = x.toNat * 2 ^ 16 + y.toNat * 2 ^ 8 + z.toNat := by
  rw [toNat_append_eq, toNat_append_eq]
  omega

/-- Four values of six bits make 24 bits, and these have the four characters. -/
theorem b64Quad_b64Bits (v0 v1 v2 v3 : BitVec 6) :
    b64Quad (b64Bits v0 v1 v2 v3) = [b64Char v0, b64Char v1, b64Char v2, b64Char v3] := by
  have h : (b64Bits v0 v1 v2 v3).toNat =
      ((v0.toNat * 2 ^ 6 + v1.toNat) * 2 ^ 6 + v2.toNat) * 2 ^ 6 + v3.toNat := by
    simp only [b64Bits, toNat_append_eq]
  rw [b64Quad, extractLsb'_eq_of_div_mod (p := v0) (by omega), extractLsb'_eq_of_div_mod (p := v1) (by omega),
    extractLsb'_eq_of_div_mod (p := v2) (by omega), extractLsb'_eq_of_div_mod (p := v3) (by omega)]

theorem b64Bits_extractLsb' (v : BitVec 24) :
    b64Bits (v.extractLsb' 18 6) (v.extractLsb' 12 6) (v.extractLsb' 6 6) (v.extractLsb' 0 6) = v := by
  apply BitVec.eq_of_toNat_eq
  simp only [b64Bits, toNat_append_eq, toNat_extractLsb'_eq]
  omega

theorem b64Bytes_append (x y z : Byte) : b64Bytes (x ++ y ++ z) = [x, y, z] := by
  have h := toNat_append_bytes x y z
  rw [b64Bytes, extractLsb'_eq_of_div_mod (p := x) (by omega), extractLsb'_eq_of_div_mod (p := y) (by omega),
    extractLsb'_eq_of_div_mod (p := z) (by omega)]

theorem append_extractLsb'_bytes (v : BitVec 24) :
    v.extractLsb' 16 8 ++ v.extractLsb' 8 8 ++ v.extractLsb' 0 8 = v := by
  apply BitVec.eq_of_toNat_eq
  simp only [toNat_append_eq, toNat_extractLsb'_eq]
  omega

/-! ### Base64: one group of four characters (45_codecs.md R211, R213) -/

theorem b64Char_ne_b64Pad : ∀ v : BitVec 6, b64Char v ≠ b64Pad := by decide

@[simp] theorem b64Digit_b64Char (v : BitVec 6) : b64Digit (b64Char v) = .ok v := by
  rw [b64Digit, b64Val_b64Char]

theorem b64Digit_eq_ok {q : Word} {v : BitVec 6} (h : b64Digit q = .ok v) : b64Char v = q := by
  unfold b64Digit at h
  split at h
  · rename_i hq
    cases h
    exact b64Char_of_b64Val_eq_some hq
  · cases h

/-- Three bytes have the four characters of their 24 bits. -/
theorem b64Encode_b64Bytes (v : BitVec 24) : b64Encode (b64Bytes v) = b64Quad v := by
  rw [b64Bytes, b64Encode, append_extractLsb'_bytes, b64Encode, List.append_nil]

/-- Two bytes, the third zero, have the first three characters and one `=`. -/
theorem b64Encode_take_two {v : BitVec 24} (h : v.extractLsb' 0 8 = 0#8) :
    b64Encode ((b64Bytes v).take 2) = (b64Quad v).take 3 ++ [b64Pad] := by
  show (b64Quad (v.extractLsb' 16 8 ++ v.extractLsb' 8 8 ++ 0#8)).take 3 ++ [b64Pad] = _
  rw [← h, append_extractLsb'_bytes]

/-- One byte, the other two zero, has the first two characters and two `=`. -/
theorem b64Encode_take_one {v : BitVec 24} (h : v.extractLsb' 0 16 = 0#16) :
    b64Encode ((b64Bytes v).take 1) = (b64Quad v).take 2 ++ [b64Pad, b64Pad] := by
  show (b64Quad (v.extractLsb' 16 8 ++ 0#8 ++ 0#8)).take 2 ++ [b64Pad, b64Pad] = _
  have h0 : v.extractLsb' 0 8 = 0#8 := extractLsb'_eq_zero_of_le h (by decide)
  have h8 : v.extractLsb' 8 8 = 0#8 := extractLsb'_eq_zero_of_le h (by decide)
  nth_rw 1 [← h8]
  rw [← h0, append_extractLsb'_bytes]

theorem b64PadCount_eq_zero {q2 q3 : Word} (h : q3 ≠ b64Pad) : b64PadCount q2 q3 = 0 := if_neg h

theorem b64PadCount_eq_one {q2 : Word} (h : q2 ≠ b64Pad) : b64PadCount q2 b64Pad = 1 := if_neg h

theorem b64PadCount_eq_two : b64PadCount b64Pad b64Pad = 2 := rfl

theorem b64Keep_zero (v : BitVec 24) : b64Keep 0 v = .ok (b64Bytes v) := rfl

theorem b64Keep_one_eq_ok_iff {v : BitVec 24} {g : List Byte} :
    b64Keep 1 v = .ok g ↔ v.extractLsb' 0 8 = 0#8 ∧ (b64Bytes v).take 2 = g := by
  by_cases h : v.extractLsb' 0 8 = 0#8 <;> simp [b64Keep, h]

theorem b64Keep_two_eq_ok_iff {v : BitVec 24} {g : List Byte} :
    b64Keep 2 v = .ok g ↔ v.extractLsb' 0 16 = 0#16 ∧ (b64Bytes v).take 1 = g := by
  by_cases h : v.extractLsb' 0 16 = 0#16 <;> simp [b64Keep, h]

/-- A group that decodes is the encoding of its bytes. -/
theorem b64Encode_of_b64DecGroup {q0 q1 q2 q3 : Word} {g : List Byte} (h : b64DecGroup q0 q1 q2 q3 = .ok g) :
    b64Encode g = [q0, q1, q2, q3] := by
  obtain ⟨v0, h0, h⟩ := bind_ok h
  obtain ⟨v1, h1, h⟩ := bind_ok h
  obtain ⟨v2, h2, h⟩ := bind_ok h
  obtain ⟨v3, h3, hk⟩ := bind_ok h
  rw [← b64Digit_eq_ok h0, ← b64Digit_eq_ok h1]
  by_cases hq3 : q3 = b64Pad
  · subst hq3
    by_cases hq2 : q2 = b64Pad
    · subst hq2
      cases h2
      cases h3
      obtain ⟨hz, rfl⟩ := b64Keep_two_eq_ok_iff.mp hk
      rw [b64Encode_take_one hz, b64Quad_b64Bits]
      rfl
    · rw [b64PadCount_eq_one hq2] at hk h2 h3
      cases h3
      rw [← b64Digit_eq_ok h2]
      obtain ⟨hz, rfl⟩ := b64Keep_one_eq_ok_iff.mp hk
      rw [b64Encode_take_two hz, b64Quad_b64Bits]
      rfl
  · rw [b64PadCount_eq_zero hq3] at hk h2 h3
    rw [← b64Digit_eq_ok h2, ← b64Digit_eq_ok h3]
    cases hk
    exact (b64Encode_b64Bytes _).trans (b64Quad_b64Bits ..)

/-- The characters of three bytes decode to them. -/
theorem b64DecGroup_three (v : BitVec 24) :
    b64DecGroup (b64Char (v.extractLsb' 18 6)) (b64Char (v.extractLsb' 12 6)) (b64Char (v.extractLsb' 6 6))
      (b64Char (v.extractLsb' 0 6)) = .ok (b64Bytes v) := by
  rw [b64DecGroup, b64PadCount_eq_zero (b64Char_ne_b64Pad _)]
  simp [b64DataDigit, bind, Except.bind, b64Bits_extractLsb', b64Keep_zero]

/-- The characters of two bytes, the third zero, decode to them. -/
theorem b64DecGroup_two {v : BitVec 24} (h : v.extractLsb' 0 8 = 0#8) :
    b64DecGroup (b64Char (v.extractLsb' 18 6)) (b64Char (v.extractLsb' 12 6)) (b64Char (v.extractLsb' 6 6)) b64Pad =
      .ok ((b64Bytes v).take 2) := by
  have h0 : v.extractLsb' 0 6 = 0#6 := extractLsb'_eq_zero_of_le h (by decide)
  have hv : b64Bits (v.extractLsb' 18 6) (v.extractLsb' 12 6) (v.extractLsb' 6 6) 0#6 = v := by
    rw [← h0, b64Bits_extractLsb']
  rw [b64DecGroup, b64PadCount_eq_one (b64Char_ne_b64Pad _)]
  simp [b64DataDigit, bind, Except.bind, hv, b64Keep_one_eq_ok_iff, h]

/-- The characters of one byte, the other two zero, decode to it. -/
theorem b64DecGroup_one {v : BitVec 24} (h : v.extractLsb' 0 16 = 0#16) :
    b64DecGroup (b64Char (v.extractLsb' 18 6)) (b64Char (v.extractLsb' 12 6)) b64Pad b64Pad =
      .ok ((b64Bytes v).take 1) := by
  have h0 : v.extractLsb' 0 6 = 0#6 := extractLsb'_eq_zero_of_le h (by decide)
  have h6 : v.extractLsb' 6 6 = 0#6 := extractLsb'_eq_zero_of_le h (by decide)
  have hv : b64Bits (v.extractLsb' 18 6) (v.extractLsb' 12 6) 0#6 0#6 = v := by
    nth_rw 1 [← h6]
    rw [← h0, b64Bits_extractLsb']
  rw [b64DecGroup, b64PadCount_eq_two]
  simp [b64DataDigit, bind, Except.bind, hv, b64Keep_two_eq_ok_iff, h]

/-! ### Base64: whole texts (45_codecs.md R211, R213, R216) -/

/-- Four characters encode one, two or three bytes. -/
theorem bytes_of_b64Encode_eq_group {q0 q1 q2 q3 : Word} {g : List Byte} (h : b64Encode g = [q0, q1, q2, q3]) :
    (∃ x, g = [x]) ∨ (∃ x y, g = [x, y]) ∨ ∃ x y z, g = [x, y, z] := by
  have hlen := congrArg List.length h
  rw [length_b64Encode] at hlen
  match g, hlen with
  | [x], _ => exact .inl ⟨x, rfl⟩
  | [x, y], _ => exact .inr (.inl ⟨x, y, rfl⟩)
  | [x, y, z], _ => exact .inr (.inr ⟨x, y, z, rfl⟩)
  | _ :: _ :: _ :: _ :: _, hlen => simp at hlen; omega

/-- Behind a group without padding the encoding goes on by itself. -/
theorem b64Encode_append_of_full {q0 q1 q2 q3 : Word} {g : List Byte} (h : b64Encode g = [q0, q1, q2, q3])
    (hq3 : q3 ≠ b64Pad) (bs : List Byte) : b64Encode (g ++ bs) = q0 :: q1 :: q2 :: q3 :: b64Encode bs := by
  obtain ⟨x, rfl⟩ | ⟨x, y, rfl⟩ | ⟨x, y, z, rfl⟩ := bytes_of_b64Encode_eq_group h
  · cases h; contradiction
  · cases h; contradiction
  · cases h; rfl

theorem b64DecGroups_cons {q0 q1 q2 q3 : Word} {t : List Word} {g bs : List Byte}
    (hp : b64PadCount q2 q3 = 0 ∨ t = []) (hg : b64DecGroup q0 q1 q2 q3 = .ok g) (ht : b64DecGroups t = .ok bs) :
    b64DecGroups (q0 :: q1 :: q2 :: q3 :: t) = .ok (g ++ bs) := by
  rw [b64DecGroups, if_neg (by rcases hp with hp | hp <;> simp [hp]), hg, ht]
  rfl

/-- A text that decodes is the encoding of its bytes: only the last group may be short. -/
theorem b64Encode_of_b64DecGroups {t : List Word} {b : List Byte} (h : b64DecGroups t = .ok b) : b64Encode b = t := by
  induction t using b64DecGroups.induct generalizing b with
  | case1 => cases h; rfl
  | case2 q0 q1 q2 q3 t hp => rw [b64DecGroups, if_pos hp] at h; cases h
  | case3 q0 q1 q2 q3 t hp ih =>
    rw [b64DecGroups, if_neg hp] at h
    obtain ⟨g, hg, h⟩ := bind_ok h
    obtain ⟨bs, hbs, h⟩ := bind_ok h
    cases h
    have hgroup := b64Encode_of_b64DecGroup hg
    by_cases hq3 : q3 = b64Pad
    · have ht : t = [] := by
        by_contra ht
        exact hp ⟨by rw [b64PadCount, if_pos hq3]; split <;> decide, ht⟩
      subst ht
      cases hbs
      rw [List.append_nil, hgroup]
    · rw [b64Encode_append_of_full hgroup hq3, ih hbs]
  | case4 | case5 | case6 => cases h

/-- The encoding of a byte sequence decodes to it. -/
theorem b64DecGroups_b64Encode (b : List Byte) : b64DecGroups (b64Encode b) = .ok b := by
  induction b using b64Encode.induct with
  | case1 => rfl
  | case2 x =>
    have hz : (x ++ 0#8 ++ 0#8).extractLsb' 0 16 = 0#16 :=
      extractLsb'_eq_of_div_mod (by rw [toNat_append_bytes, BitVec.toNat_zero, BitVec.toNat_zero]; omega)
    have hg := b64DecGroup_one hz
    rw [b64Bytes_append] at hg
    exact b64DecGroups_cons (.inr rfl) hg rfl
  | case3 x y =>
    have hg := b64DecGroup_two (v := x ++ y ++ 0#8) BitVec.extractLsb'_append_eq_right
    rw [b64Bytes_append] at hg
    exact b64DecGroups_cons (.inr rfl) hg rfl
  | case4 x y z b ih =>
    have hg := b64DecGroup_three (x ++ y ++ z)
    rw [b64Bytes_append] at hg
    exact b64DecGroups_cons (.inl (b64PadCount_eq_zero (b64Char_ne_b64Pad _))) hg ih

theorem b64Encode_eq_iff_b64Decode {b : List Byte} {t : List Word} : b64Encode b = t ↔ b64Decode t = .ok b := by
  constructor
  · rintro rfl
    rw [b64Decode, if_neg (by rw [length_b64Encode]; omega), b64DecGroups_b64Encode]
  · intro h
    unfold b64Decode at h
    split at h
    · cases h
    · exact b64Encode_of_b64DecGroups h

/-- Settles O55: the groups are the bits of their bytes, and `B64Dec` is the exact inverse of `B64Enc`. -/
theorem base64RoundTrip : Obligations.Base64RoundTrip := by
  refine ⟨rfl, fun x => ?_, fun x y => ?_, fun x y z b => ?_, fun _ _ => b64Decode_error,
    fun _ _ => b64Encode_eq_iff_b64Decode, length_b64Encode⟩
  · rw [b64Encode, b64Quad_eq, toNat_append_bytes]
    simp [b64Pad]
  · rw [b64Encode, b64Quad_eq, toNat_append_bytes]
    simp [b64Pad]
  · rw [b64Encode, b64Quad_eq, toNat_append_bytes]

/-! ### `B64.ENC` and `B64.DEC` (45_codecs.md R212, R215) -/

theorem exec_b64Enc_overflow
    (h : s.params.bufBytes < s.binlen.toNat ∨ s.params.bufCps < 4 * ((s.binlen.toNat + 2) / 3)) :
    exec .b64Enc s = .next (s.raise .bufferOverflow) := by
  refine exec_of_body_error (i := .b64Enc) ?_
  rcases Nat.lt_or_ge s.params.bufBytes s.binlen.toNat with hl | hl
  · exact b64EncBody_long hl
  · exact b64EncBody_full hl (h.resolve_left (Nat.not_lt.mpr hl))

/-- Settles O35: the number of characters depends on the number of bytes alone. -/
theorem b64EncResult : Obligations.B64EncResult := by
  refine ⟨by decide, fun s => ⟨exec_b64Enc_overflow, fun hl ho =>
    ⟨_, exec_of_body_ok (i := .b64Enc) (b64EncBody_ok hl ho), ?_, emitText_read s _⟩⟩⟩
  rw [State.emitText, length_b64Encode, Memory.length_readPrefix]
  rfl

/-- Settles O36: the ends of the pseudocode, one for each test. -/
theorem b64DecResult : Obligations.B64DecResult := by
  refine ⟨by decide, fun s => ⟨fun hl => ?_, fun hl =>
    ⟨fun he => ?_, fun out he => ⟨fun ho => ?_, fun ho => ?_⟩⟩⟩⟩
  · exact exec_of_body_error (i := .b64Dec) (b64DecBody_long hl)
  · exact exec_of_body_error (i := .b64Dec) (b64DecBody_invalid hl (eq_error_of_forall_ne_ok b64Decode_error he))
  · exact exec_of_body_error (i := .b64Dec) (b64DecBody_full hl he ho)
  · exact ⟨_, exec_of_body_ok (i := .b64Dec) (b64DecBody_ok hl he ho), rfl, emitBytes_read s out⟩

end Sys2Proof.Machine

/-! The UTF-8 codec (O33, O34, O52, O53). -/

namespace Sys2Proof.Machine

variable {s : State} {c d : Word} {x : Byte} {b e rest : List Byte} {t : List Word}

/-! ### The bytes of one code point (45_codecs.md R201) -/

theorem utf8EncOne_of_lt_80 (h : c.toNat < 0x80) : utf8EncOne c = .ok [0#1 ++ c.extractLsb' 0 7] := by
  have hx : c.extractLsb' 0 8 = 0#1 ++ c.extractLsb' 0 7 := by
    apply BitVec.eq_of_toNat_eq
    rw [toNat_append_eq, toNat_extractLsb'_eq, toNat_extractLsb'_eq, BitVec.toNat_zero]
    omega
  rw [utf8EncOne, if_pos (by bv_omega), hx]

theorem utf8EncOne_of_lt_800 (hl : 0x80 ≤ c.toNat) (h : c.toNat < 0x800) :
    utf8EncOne c = .ok [0b110#3 ++ c.extractLsb' 6 5, utf8Continuation (c.extractLsb' 0 6)] := by
  rw [utf8EncOne, if_neg (by bv_omega), if_pos (by bv_omega)]

theorem utf8EncOne_of_lt_10000 (hl : 0x800 ≤ c.toNat) (h : c.toNat < 0x10000) :
    utf8EncOne c = .ok [0b1110#4 ++ c.extractLsb' 12 4, utf8Continuation (c.extractLsb' 6 6),
      utf8Continuation (c.extractLsb' 0 6)] := by
  rw [utf8EncOne, if_neg (by bv_omega), if_neg (by bv_omega), if_pos (by bv_omega)]

theorem utf8EncOne_of_lt_110000 (hl : 0x10000 ≤ c.toNat) (h : c.toNat < 0x110000) :
    utf8EncOne c = .ok [0b11110#5 ++ c.extractLsb' 18 3, utf8Continuation (c.extractLsb' 12 6),
      utf8Continuation (c.extractLsb' 6 6), utf8Continuation (c.extractLsb' 0 6)] := by
  rw [utf8EncOne, if_neg (by bv_omega), if_neg (by bv_omega), if_neg (by bv_omega), if_pos (by bv_omega)]

theorem utf8EncOne_of_le (h : 0x110000 ≤ c.toNat) : utf8EncOne c = .error .invalidCharacterCode := by
  rw [utf8EncOne, if_neg (by bv_omega), if_neg (by bv_omega), if_neg (by bv_omega), if_neg (by bv_omega)]

/-- A marker before the bits of `c` from bit `i` up, as a number. -/
theorem append_extractLsb'_eq_ofNat {k w i n : Nat} (m : BitVec k) {c : BitVec w} (h : c.toNat / 2 ^ i < 2 ^ n) :
    m ++ c.extractLsb' i n = BitVec.ofNat (k + n) (m.toNat * 2 ^ n + c.toNat / 2 ^ i) := by
  apply BitVec.eq_of_toNat_eq
  have hlt := (m ++ c.extractLsb' i n).isLt
  rw [toNat_append_eq, toNat_extractLsb'_eq, Nat.mod_eq_of_lt h] at hlt ⊢
  exact (Nat.mod_eq_of_lt hlt).symm

theorem utf8Continuation_extractLsb'_eq_ofNat (c : Word) (i : Nat) :
    utf8Continuation (c.extractLsb' i 6) = BitVec.ofNat 8 (0x80 + c.toNat / 2 ^ i % 64) := by
  apply BitVec.eq_of_toNat_eq
  rw [utf8Continuation, toNat_append_eq, toNat_extractLsb'_eq, BitVec.toNat_ofNat, BitVec.toNat_ofNat]
  omega

/-! ### The well-formed sequences of one code point (45_codecs.md R201, R204) -/

/-- The rows of the UTF-8 table: the code point `c` that the lead byte and the continuation bytes after it spell with
their payloads, where no shorter row has it. -/
inductive IsUtf8 (c : Word) : Byte → List Byte → Prop
  | one (p : BitVec 7) (spells : c.toNat = p.toNat) : IsUtf8 c (0#1 ++ p) []
  | two (a : BitVec 5) (p : BitVec 6) (spells : c.toNat = a.toNat * 64 + p.toNat) (least : 0x80 ≤ c.toNat) :
      IsUtf8 c (0b110#3 ++ a) [utf8Continuation p]
  | three (a : BitVec 4) (p q : BitVec 6) (spells : c.toNat = (a.toNat * 64 + p.toNat) * 64 + q.toNat)
      (least : 0x800 ≤ c.toNat) : IsUtf8 c (0b1110#4 ++ a) [utf8Continuation p, utf8Continuation q]
  | four (a : BitVec 3) (p q r : BitVec 6)
      (spells : c.toNat = ((a.toNat * 64 + p.toNat) * 64 + q.toNat) * 64 + r.toNat) (least : 0x10000 ≤ c.toNat)
      (most : c.toNat < 0x110000) :
      IsUtf8 c (0b11110#5 ++ a) [utf8Continuation p, utf8Continuation q, utf8Continuation r]

/-- A sequence of the table is the encoding of its code point. -/
theorem IsUtf8.utf8EncOne_eq (h : IsUtf8 c x e) : utf8EncOne c = .ok (x :: e) := by
  cases h with
  | one p spells =>
    rw [utf8EncOne_of_lt_80 (by omega), extractLsb'_eq_of_div_mod (p := p) (by omega)]
  | two a p spells least =>
    rw [utf8EncOne_of_lt_800 least (by omega), extractLsb'_eq_of_div_mod (p := a) (by omega),
      extractLsb'_eq_of_div_mod (p := p) (by omega)]
  | three a p q spells least =>
    rw [utf8EncOne_of_lt_10000 least (by omega), extractLsb'_eq_of_div_mod (p := a) (by omega),
      extractLsb'_eq_of_div_mod (p := p) (by omega), extractLsb'_eq_of_div_mod (p := q) (by omega)]
  | four a p q r spells least most =>
    rw [utf8EncOne_of_lt_110000 least most, extractLsb'_eq_of_div_mod (p := a) (by omega),
      extractLsb'_eq_of_div_mod (p := p) (by omega), extractLsb'_eq_of_div_mod (p := q) (by omega),
      extractLsb'_eq_of_div_mod (p := r) (by omega)]

/-- Every code point has a sequence: cut its bits as the row of its range says. -/
theorem exists_isUtf8 (h : c.toNat < 0x110000) : ∃ x e, IsUtf8 c x e := by
  rcases Nat.lt_or_ge c.toNat 0x80 with h1 | h1
  · refine ⟨_, _, .one (c.extractLsb' 0 7) ?_⟩
    rw [toNat_extractLsb'_eq]
    omega
  rcases Nat.lt_or_ge c.toNat 0x800 with h2 | h2
  · refine ⟨_, _, .two (c.extractLsb' 6 5) (c.extractLsb' 0 6) ?_ h1⟩
    simp only [toNat_extractLsb'_eq]
    omega
  rcases Nat.lt_or_ge c.toNat 0x10000 with h3 | h3
  · refine ⟨_, _, .three (c.extractLsb' 12 4) (c.extractLsb' 6 6) (c.extractLsb' 0 6) ?_ h2⟩
    simp only [toNat_extractLsb'_eq]
    omega
  · refine ⟨_, _, .four (c.extractLsb' 18 3) (c.extractLsb' 12 6) (c.extractLsb' 6 6) (c.extractLsb' 0 6) ?_ h3 h⟩
    simp only [toNat_extractLsb'_eq]
    omega

theorem exists_utf8EncOne_eq_ok (h : c.toNat < 0x110000) : ∃ e, utf8EncOne c = .ok e := by
  obtain ⟨x, e, he⟩ := exists_isUtf8 h
  exact ⟨_, he.utf8EncOne_eq⟩

/-- The encoding of a code point is a sequence of the table. -/
theorem isUtf8_of_utf8EncOne_eq_ok (h : utf8EncOne c = .ok b) : ∃ x e, b = x :: e ∧ IsUtf8 c x e := by
  have hlt : c.toNat < 0x110000 := by
    have := lt_of_utf8EncOne_ok h
    bv_omega
  obtain ⟨x, e, he⟩ := exists_isUtf8 hlt
  cases he.utf8EncOne_eq.symm.trans h
  exact ⟨x, e, rfl, he⟩

/-! ### Whole texts (45_codecs.md R201) -/

theorem eq_append_of_utf8Encode_cons (h : utf8Encode (c :: t) = .ok b) :
    ∃ e bs, utf8EncOne c = .ok e ∧ utf8Encode t = .ok bs ∧ b = e ++ bs := by
  obtain ⟨e, he, h⟩ := bind_ok h
  obtain ⟨bs, hbs, h⟩ := bind_ok h
  cases h
  exact ⟨e, bs, he, hbs, rfl⟩

/-- A text of code points encodes to the concatenation. -/
theorem utf8Encode_of_forall_lt (h : ∀ c ∈ t, c.toNat < 0x110000) :
    utf8Encode t = .ok (t.flatMap fun c => (utf8EncOne c).toOption.getD []) := by
  induction t with
  | nil => rfl
  | cons c t ih =>
    obtain ⟨hc, ht⟩ := List.forall_mem_cons.mp h
    obtain ⟨e, he⟩ := exists_utf8EncOne_eq_ok hc
    rw [utf8Encode_cons_ok he (ih ht), List.flatMap_cons, he]
    rfl

/-- One element that is no code point makes the whole text fail. -/
theorem utf8Encode_of_exists_le (h : ∃ c ∈ t, 0x110000 ≤ c.toNat) :
    utf8Encode t = .error .invalidCharacterCode := by
  obtain ⟨c, hc, hle⟩ := h
  refine eq_error_of_forall_ne_ok utf8Encode_error fun b ht => ?_
  exact absurd (isText_of_utf8Encode_ok ht c hc) (by bv_omega)

/-- Settles O52: a marker before the high bits is a sum, and a text encodes element by element. -/
theorem utf8EncodingTable : Obligations.Utf8EncodingTable := by
  refine ⟨fun c => ⟨fun h => ?_, fun hl h => ?_, fun hl h => ?_, fun hl h => ?_, utf8EncOne_of_le⟩,
    fun t => ⟨utf8Encode_of_exists_le, utf8Encode_of_forall_lt⟩⟩
  · rw [utf8EncOne_of_lt_80 h, append_extractLsb'_eq_ofNat _ (by omega), BitVec.toNat_zero, Nat.zero_mul, Nat.zero_add,
      Nat.pow_zero, Nat.div_one]
  · rw [utf8EncOne_of_lt_800 hl h, append_extractLsb'_eq_ofNat _ (by omega), utf8Continuation_extractLsb'_eq_ofNat,
      Nat.pow_zero, Nat.div_one]
    rfl
  · rw [utf8EncOne_of_lt_10000 hl h, append_extractLsb'_eq_ofNat _ (by omega), utf8Continuation_extractLsb'_eq_ofNat,
      utf8Continuation_extractLsb'_eq_ofNat, Nat.pow_zero, Nat.div_one]
    rfl
  · rw [utf8EncOne_of_lt_110000 hl h, append_extractLsb'_eq_ofNat _ (by omega), utf8Continuation_extractLsb'_eq_ofNat,
      utf8Continuation_extractLsb'_eq_ofNat, utf8Continuation_extractLsb'_eq_ofNat, Nat.pow_zero, Nat.div_one]
    rfl

/-! ### Reading one code point (45_codecs.md R204) -/

theorem utf8Continuation_inRange : ∀ p : BitVec 6,
    ¬ (utf8Continuation p < 0x80#8 ∨ utf8Continuation p > 0xBF#8) ∧
      (utf8Continuation p &&& 0x3F#8).setWidth 32 = p.setWidth 32 := by
  decide

/-- The bytes in the range of R204 are the continuation bytes. -/
theorem exists_eq_utf8Continuation {y : Byte} (h : ¬ (y < 0x80#8 ∨ y > 0xBF#8)) : ∃ p, y = utf8Continuation p := by
  refine ⟨y.extractLsb' 0 6, BitVec.eq_of_toNat_eq ?_⟩
  rw [utf8Continuation, toNat_append_eq, toNat_extractLsb'_eq, BitVec.toNat_ofNat]
  bv_omega

theorem utf8Continue_succ_iff {k : Nat} {r : Word × List Byte} : utf8Continue (k + 1) c b = some r ↔
    ∃ p b', b = utf8Continuation p :: b' ∧ utf8Continue k ((c <<< 6) ||| p.setWidth 32) b' = some r := by
  have hcont (p : BitVec 6) (b' : List Byte) : utf8Continue (k + 1) c (utf8Continuation p :: b') =
      utf8Continue k ((c <<< 6) ||| p.setWidth 32) b' := by
    obtain ⟨hrange, hpayload⟩ := utf8Continuation_inRange p
    rw [utf8Continue, if_neg hrange, hpayload]
  constructor
  · intro h
    cases b with
    | nil => cases h
    | cons y b =>
      by_cases hy : y < 0x80#8 ∨ y > 0xBF#8
      · rw [utf8Continue, if_pos hy] at h; cases h
      · obtain ⟨p, rfl⟩ := exists_eq_utf8Continuation hy
        exact ⟨p, b, rfl, hcont p b ▸ h⟩
  · rintro ⟨p, b', rfl, h⟩
    rw [hcont, h]

/-- Six more payload bits: the value so far goes up by 64. -/
theorem toNat_shiftLeft_or_setWidth (h : c.toNat < 2 ^ 26) (p : BitVec 6) :
    ((c <<< 6) ||| p.setWidth 32).toNat = c.toNat * 64 + p.toNat := by
  have hp := p.isLt
  rw [BitVec.toNat_or, BitVec.toNat_shiftLeft, BitVec.toNat_setWidth, Nat.mod_eq_of_lt (a := p.toNat) (by omega),
    Nat.mod_eq_of_lt (by rw [Nat.shiftLeft_eq]; omega), ← Nat.shiftLeft_add_eq_or_of_lt hp, Nat.shiftLeft_eq]

/-- The number that the payloads `ps` spell behind a payload of value `n`. -/
def spelled (n : Nat) (ps : List (BitVec 6)) : Nat := ps.foldl (fun n p => n * 64 + p.toNat) n

/-- `k` continuation bytes are read onto a value that leaves room for them in 32 bits. -/
theorem utf8Continue_eq_some_iff {k : Nat} (h : (c.toNat + 1) * 64 ^ k ≤ 2 ^ 32) :
    utf8Continue k c b = some (d, rest) ↔
      ∃ ps : List (BitVec 6), ps.length = k ∧ b = ps.map utf8Continuation ++ rest ∧ d.toNat = spelled c.toNat ps := by
  induction k generalizing c b with
  | zero =>
    simp only [utf8Continue, Option.some.injEq, Prod.mk.injEq, List.length_eq_zero_iff, exists_eq_left, List.map_nil,
      List.nil_append, spelled, List.foldl_nil, BitVec.toNat_inj]
    exact ⟨fun ⟨hc, hb⟩ => ⟨hb, hc.symm⟩, fun ⟨hb, hc⟩ => ⟨hc.symm, hb⟩⟩
  | succ k ih =>
    rw [Nat.pow_succ', ← Nat.mul_assoc] at h
    have hc : c.toNat < 2 ^ 26 := by
      have := (Nat.le_mul_of_pos_right _ (Nat.pow_pos (n := k) (by decide : 0 < 64))).trans h
      omega
    have hnext (p : BitVec 6) : (((c <<< 6) ||| p.setWidth 32).toNat + 1) * 64 ^ k ≤ 2 ^ 32 := by
      have hp := p.isLt
      rw [toNat_shiftLeft_or_setWidth hc]
      exact (Nat.mul_le_mul_right _ (by omega)).trans h
    simp only [utf8Continue_succ_iff, ih (hnext _), toNat_shiftLeft_or_setWidth hc]
    constructor
    · rintro ⟨p, b', rfl, ps, rfl, rfl, hd⟩
      exact ⟨p :: ps, rfl, rfl, hd⟩
    · rintro ⟨ps, hlen, rfl, hd⟩
      obtain ⟨p, ps, rfl⟩ := List.exists_cons_of_length_eq_add_one hlen
      exact ⟨p, _, rfl, ps, Nat.succ.inj hlen, rfl, hd⟩

theorem utf8Lead_one : ∀ p : BitVec 7, utf8Lead (0#1 ++ p) = some (0, p.setWidth 32, 0x0#32) := by decide

theorem utf8Lead_two : ∀ a : BitVec 5, utf8Lead (0b110#3 ++ a) = some (1, a.setWidth 32, 0x80#32) := by decide

theorem utf8Lead_three : ∀ a : BitVec 4, utf8Lead (0b1110#4 ++ a) = some (2, a.setWidth 32, 0x800#32) := by decide

theorem utf8Lead_four : ∀ a : BitVec 3, utf8Lead (0b11110#5 ++ a) = some (3, a.setWidth 32, 0x10000#32) := by decide

/-- A byte that can stand first is one of the four markers before a payload. -/
theorem utf8Lead_shapes (h : utf8Lead x ≠ none) :
    (∃ p : BitVec 7, x = 0#1 ++ p) ∨ (∃ a : BitVec 5, x = 0b110#3 ++ a) ∨ (∃ a : BitVec 4, x = 0b1110#4 ++ a) ∨
      ∃ a : BitVec 3, x = 0b11110#5 ++ a := by
  have hshape {k n : Nat} (m : BitVec k) (hx : x.toNat / 2 ^ n = m.toNat) :
      x.toNat = (m ++ x.extractLsb' 0 n).toNat := by
    rw [toNat_append_eq, toNat_extractLsb'_eq, Nat.pow_zero, Nat.div_one, ← hx, Nat.div_add_mod']
  unfold utf8Lead at h
  split at h
  · exact .inl ⟨_, BitVec.eq_of_toNat_eq (hshape 0#1 (by bv_omega))⟩
  split at h
  · exact .inr (.inl ⟨_, BitVec.eq_of_toNat_eq (hshape 0b110#3 (by bv_omega))⟩)
  split at h
  · exact .inr (.inr (.inl ⟨_, BitVec.eq_of_toNat_eq (hshape 0b1110#4 (by bv_omega))⟩))
  split at h
  · exact .inr (.inr (.inr ⟨_, BitVec.eq_of_toNat_eq (hshape 0b11110#5 (by bv_omega))⟩))
  · contradiction

/-- The sequences that begin with a given lead byte: as many continuation bytes as it says, and a code point not below
the least one of its row. -/
theorem utf8DecOne_eq_some_iff_of_lead {w k : Nat} {a : BitVec w} {lo : Word}
    (hl : utf8Lead x = some (k, a.setWidth 32, lo)) (hw : w ≤ 32 := by decide)
    (hk : 2 ^ w * 64 ^ k ≤ 2 ^ 32 := by decide) :
    utf8DecOne x b = some (d, rest) ↔
      ∃ ps : List (BitVec 6), ps.length = k ∧ b = ps.map utf8Continuation ++ rest ∧ d.toNat = spelled a.toNat ps ∧
        lo.toNat ≤ d.toNat ∧ d.toNat < 0x110000 := by
  have ha : (a.setWidth 32).toNat = a.toNat := BitVec.toNat_setWidth_of_le hw
  have hcont := utf8Continue_eq_some_iff (c := a.setWidth 32) (b := b) (d := d) (rest := rest) (k := k)
    (by rw [ha]; exact (Nat.mul_le_mul_right _ a.isLt).trans hk)
  rw [ha] at hcont
  rw [utf8DecOne, hl]
  constructor
  · intro h
    dsimp only at h
    split at h
    · cases h
    rename_i hc
    split at h
    · cases h
    cases h
    obtain ⟨ps, hlen, hb, hd⟩ := hcont.mp hc
    exact ⟨ps, hlen, hb, hd, by bv_omega, by bv_omega⟩
  · rintro ⟨ps, hlen, hb, hd, hlo, hmost⟩
    dsimp only
    rw [hcont.mpr ⟨ps, hlen, hb, hd⟩]
    dsimp only
    rw [if_neg (by bv_omega)]

/-- `Utf8Dec` reads off the front exactly the sequences of the table. -/
theorem utf8DecOne_eq_some_iff : utf8DecOne x b = some (d, rest) ↔ ∃ e, b = e ++ rest ∧ IsUtf8 d x e := by
  constructor
  · intro h
    have hlead : utf8Lead x ≠ none := by
      intro hl
      rw [utf8DecOne, hl] at h
      cases h
    obtain ⟨p, rfl⟩ | ⟨a, rfl⟩ | ⟨a, rfl⟩ | ⟨a, rfl⟩ := utf8Lead_shapes hlead
    · obtain ⟨ps, hlen, rfl, hd, -, -⟩ := (utf8DecOne_eq_some_iff_of_lead (utf8Lead_one p)).mp h
      match ps, hlen with
      | [], _ => exact ⟨_, rfl, .one p hd⟩
    · obtain ⟨ps, hlen, rfl, hd, hlo, -⟩ := (utf8DecOne_eq_some_iff_of_lead (utf8Lead_two a)).mp h
      match ps, hlen with
      | [p], _ => exact ⟨_, rfl, .two a p hd hlo⟩
    · obtain ⟨ps, hlen, rfl, hd, hlo, -⟩ := (utf8DecOne_eq_some_iff_of_lead (utf8Lead_three a)).mp h
      match ps, hlen with
      | [p, q], _ => exact ⟨_, rfl, .three a p q hd hlo⟩
    · obtain ⟨ps, hlen, rfl, hd, hlo, hmost⟩ := (utf8DecOne_eq_some_iff_of_lead (utf8Lead_four a)).mp h
      match ps, hlen with
      | [p, q, r], _ => exact ⟨_, rfl, .four a p q r hd hlo hmost⟩
  · rintro ⟨e, rfl, h⟩
    cases h with
    | one p spells =>
      exact (utf8DecOne_eq_some_iff_of_lead (utf8Lead_one p)).mpr ⟨[], rfl, rfl, spells, Nat.zero_le _, by omega⟩
    | two a p spells least =>
      exact (utf8DecOne_eq_some_iff_of_lead (utf8Lead_two a)).mpr ⟨[p], rfl, rfl, spells, least, by omega⟩
    | three a p q spells least =>
      exact (utf8DecOne_eq_some_iff_of_lead (utf8Lead_three a)).mpr ⟨[p, q], rfl, rfl, spells, least, by omega⟩
    | four a p q r spells least most =>
      exact (utf8DecOne_eq_some_iff_of_lead (utf8Lead_four a)).mpr ⟨[p, q, r], rfl, rfl, spells, least, most⟩

/-! ### Whole texts (45_codecs.md R204, R207) -/

theorem utf8DecLoop_cons_eq_ok_iff {n : Nat} : utf8DecLoop (n + 1) (x :: b) = .ok t ↔
    ∃ c rest t', utf8DecOne x b = some (c, rest) ∧ utf8DecLoop n rest = .ok t' ∧ c :: t' = t := by
  rw [utf8DecLoop]
  cases hx : utf8DecOne x b with
  | none => simp
  | some r =>
    obtain ⟨c, rest⟩ := r
    constructor
    · intro h
      obtain ⟨t', ht, h⟩ := bind_ok h
      cases h
      exact ⟨c, rest, t', rfl, ht, rfl⟩
    · rintro ⟨_, _, t', hr, ht, rfl⟩
      cases hr
      simp [ht, bind, Except.bind, pure, Except.pure]

/-- Bytes that decode are the encoding of their text. -/
theorem utf8Encode_of_utf8DecLoop {n : Nat} (h : utf8DecLoop n b = .ok t) : utf8Encode t = .ok b := by
  induction n generalizing b t with
  | zero =>
    cases b with
    | nil => cases h; rfl
    | cons => cases h
  | succ n ih =>
    cases b with
    | nil => cases h; rfl
    | cons x b =>
      obtain ⟨c, rest, t', hx, ht, rfl⟩ := utf8DecLoop_cons_eq_ok_iff.mp h
      obtain ⟨e, rfl, he⟩ := utf8DecOne_eq_some_iff.mp hx
      exact utf8Encode_cons_ok he.utf8EncOne_eq (ih ht)

/-- The encoding of a text decodes to it; as many turns of the loop as there are bytes are enough. -/
theorem utf8DecLoop_of_utf8Encode {n : Nat} (h : utf8Encode t = .ok b) (hn : b.length ≤ n) :
    utf8DecLoop n b = .ok t := by
  induction t generalizing n b with
  | nil => cases h; cases n <;> rfl
  | cons c t ih =>
    obtain ⟨e, bs, he, hbs, rfl⟩ := eq_append_of_utf8Encode_cons h
    obtain ⟨x, e, rfl, hx⟩ := isUtf8_of_utf8EncOne_eq_ok he
    cases n with
    | zero => cases hn
    | succ n =>
      refine utf8DecLoop_cons_eq_ok_iff.mpr ⟨c, bs, t, utf8DecOne_eq_some_iff.mpr ⟨e, rfl, hx⟩, ih hbs ?_, rfl⟩
      simp only [List.cons_append, List.length_cons, List.length_append] at hn
      omega

/-- Settles O53: decoding reads off the front just what encoding puts there. -/
theorem utf8RoundTrip : Obligations.Utf8RoundTrip :=
  ⟨fun _ _ => ⟨fun h => utf8DecLoop_of_utf8Encode h le_rfl, utf8Encode_of_utf8DecLoop⟩,
    fun _ h => ⟨_, utf8Encode_of_forall_lt h⟩, fun _ _ => utf8Decode_error⟩

/-! ### `UTF8.ENC` and `UTF8.DEC` (45_codecs.md R203, R206) -/

/-- Settles O33: the ends of the pseudocode, one for each test. -/
theorem utf8EncResult : Obligations.Utf8EncResult := by
  refine ⟨by decide, fun s => ⟨fun hl => ?_, fun hl =>
    ⟨fun he => ?_, fun out he => ⟨fun ho => ?_, fun ho => ?_⟩⟩⟩⟩
  · exact exec_of_body_error (i := .utf8Enc) (utf8EncBody_long hl)
  · exact exec_of_body_error (i := .utf8Enc) (utf8EncBody_invalid hl (utf8Encode_of_exists_le he))
  · exact exec_of_body_error (i := .utf8Enc) (utf8EncBody_full hl he ho)
  · exact ⟨_, exec_of_body_ok (i := .utf8Enc) (utf8EncBody_ok hl he ho), rfl, emitBytes_read s out⟩

/-- Settles O34: the ends of the pseudocode, one for each test. -/
theorem utf8DecResult : Obligations.Utf8DecResult := by
  refine ⟨by decide, fun s => ⟨fun hl => ?_, fun hl =>
    ⟨fun he => ?_, fun out he => ⟨fun ho => ?_, fun ho => ?_⟩⟩⟩⟩
  · exact exec_of_body_error (i := .utf8Dec) (utf8DecBody_long hl)
  · exact exec_of_body_error (i := .utf8Dec) (utf8DecBody_invalid hl (eq_error_of_forall_ne_ok utf8Decode_error he))
  · exact exec_of_body_error (i := .utf8Dec) (utf8DecBody_full hl he ho)
  · exact ⟨_, exec_of_body_ok (i := .utf8Dec) (utf8DecBody_ok hl he ho), rfl, emitText_read s out⟩

end Sys2Proof.Machine

/-! The façade: the object's schedule (O56), what a nonce decides (O59), the five commands (O38, O39, O40, O41), and that
`PW.DECRYPT` undoes `PW.ENCRYPT` (O58). -/

namespace Sys2Proof.Machine

variable {s : State} {x y : TimeSample} {ks : Schedule} {nonce nonce' p q : List Byte}

/-! ### The object's schedule (46_facade.md R234) -/

theorem getD_take {m i : Nat} (h : i < m) (b : List Byte) : (b.take m).getD i 0#8 = b.getD i 0#8 := by
  rw [List.getD_eq_getElem?_getD, List.getD_eq_getElem?_getD, List.getElem?_take_of_lt h]

/-- The first half of the padded seed is the padded first half. -/
theorem padTo_take_toList_padTo {m n : Nat} (h : m ≤ n) (b : List Byte) :
    padTo m ((padTo n b).toList.take m) = padTo m (b.take m) := by
  refine Vector.ext fun i hi => ?_
  have hseed := getD_toList_padTo n b i
  rw [if_pos (hi.trans_le h)] at hseed
  rw [getElem_padTo, getElem_padTo, getD_take hi, getD_take hi, hseed]

/-- `r`: the first half of the seed, encrypted under the seed's own schedule. -/
def selfKeyedBlock (pb : List Byte) : Block :=
  cipher (padTo 16 (pb.take 16)) (facadeSchedule (padTo 32 pb).toList) facadeRounds

theorem createKeySchedule_eq (pb : List Byte) :
    createKeySchedule pb = facadeSchedule ((selfKeyedBlock pb).toList ++ (selfKeyedBlock pb).toList) := by
  simp only [createKeySchedule, selfKeyedBlock, padTo_take_toList_padTo (show 16 ≤ 32 by decide)]

/-- The schedule depends on the padded seed alone. -/
theorem createKeySchedule_congr (h : padTo 32 q = padTo 32 p) : createKeySchedule q = createKeySchedule p := by
  simp only [createKeySchedule, h]

theorem padTo_congr {n : Nat} (h : ∀ i, i < n → q.getD i 0#8 = p.getD i 0#8) : padTo n q = padTo n p := by
  refine Vector.ext fun i hi => ?_
  rw [getElem_padTo, getElem_padTo, h i hi]

/-- Settles O56: the schedule is that of the doubled block, and a schedule begins with its key. -/
theorem objectScheduleFromSeed : Obligations.ObjectScheduleFromSeed := by
  intro pb
  have hks : (createKeySchedule pb).toList =
      keyExpansion ((selfKeyedBlock pb).toList ++ (selfKeyedBlock pb).toList) 8 := by
    rw [createKeySchedule_eq, toList_facadeSchedule]
  refine ⟨selfKeyedBlock pb, rfl, hks, ?_, fun qb h => createKeySchedule_congr (padTo_congr h)⟩
  rw [hks]
  exact take_keyExpansion (nk := 8) (by simp)

/-! ### The nonce (46_facade.md R237, R238) -/

theorem be32_eq (v : Word) : be32 v =
    [BitVec.ofNat 8 (v.toNat / 2 ^ 24), BitVec.ofNat 8 (v.toNat / 2 ^ 16), BitVec.ofNat 8 (v.toNat / 2 ^ 8),
      BitVec.ofNat 8 v.toNat] := by
  simp only [be32, extractLsb'_eq_ofNat_div, Nat.pow_zero, Nat.div_one]

theorem makeNonce_eq (x : TimeSample) : makeNonce x =
    [BitVec.ofNat 8 (x.sec.toNat / 2 ^ 24), BitVec.ofNat 8 (x.sec.toNat / 2 ^ 16), BitVec.ofNat 8 (x.sec.toNat / 2 ^ 8),
      BitVec.ofNat 8 x.sec.toNat, BitVec.ofNat 8 x.ms.toNat, BitVec.ofNat 8 x.ms.toNat, BitVec.ofNat 8 x.ms.toNat,
      BitVec.ofNat 8 x.ms.toNat] := by
  rw [makeNonce, be32_eq, extractLsb'_eq_ofNat_div, Nat.pow_zero, Nat.div_one]
  rfl

theorem be32_injective : Function.Injective be32 := by
  intro v w h
  simp only [be32, List.cons.injEq] at h
  obtain ⟨h24, h16, h8, h0, -⟩ := h
  rw [← ofLe32_extractLsb' v, ← ofLe32_extractLsb' w, h24, h16, h8, h0]

theorem extractLsb'_zero_eq_iff {w n : Nat} {v u : BitVec w} :
    v.extractLsb' 0 n = u.extractLsb' 0 n ↔ v.toNat % 2 ^ n = u.toNat % 2 ^ n := by
  rw [← BitVec.toNat_inj, toNat_extractLsb'_eq, toNat_extractLsb'_eq, Nat.pow_zero, Nat.div_one, Nat.div_one]

theorem makeNonce_eq_iff :
    makeNonce x = makeNonce y ↔ x.sec = y.sec ∧ x.ms.toNat % 256 = y.ms.toNat % 256 := by
  have hms : x.ms.extractLsb' 0 8 = y.ms.extractLsb' 0 8 ↔ x.ms.toNat % 256 = y.ms.toNat % 256 :=
    extractLsb'_zero_eq_iff
  rw [← hms]
  constructor
  · intro h
    obtain ⟨hsec, hrest⟩ := List.append_inj h rfl
    exact ⟨be32_injective hsec, List.replicate_right_injective (by decide) hrest⟩
  · rintro ⟨hsec, hrest⟩
    rw [makeNonce, makeNonce, hsec, hrest]

theorem toList_nonceBlock (h : 8 ≤ nonce.length) :
    (nonceBlock nonce).toList = nonce.take 8 ++ List.replicate 8 0x00#8 := by
  have hl : (nonce.take 8).length = 8 := List.length_take_of_le h
  rw [nonceBlock, toList_padTo, hl, List.take_of_length_le (by omega)]

/-! ### Sealing (46_facade.md R238, R240, R313) -/

theorem take_sealBytes (hn : nonce.length = 8) (ks : Schedule) (p : List Byte) :
    (sealBytes ks nonce p).take 8 = nonce :=
  List.take_left' hn

theorem drop_sealBytes (hn : nonce.length = 8) (ks : Schedule) (p : List Byte) :
    (sealBytes ks nonce p).drop 8 = (ctrXform (nonceBlock nonce) p ks facadeRounds).1 :=
  List.drop_left' hn

/-- Behind the nonce stands the plaintext under the keystream of its Counter Block. -/
theorem getD_sealBytes (hn : nonce.length = 8) (ks : Schedule) {j : Nat} (hj : j < p.length) :
    (sealBytes ks nonce p).getD (8 + j) 0#8 = p.getD j 0#8 ^^^ keystreamByte (nonceBlock nonce) ks facadeRounds j := by
  obtain ⟨-, hb⟩ := isCtrOutput_ctrXform (nonceBlock nonce) p ks facadeRounds
  rw [sealBytes, List.getD_append_right _ _ _ _ (by omega), hn, Nat.add_sub_cancel_left, hb j hj]

/-- What `PW.DECRYPT` computes from sealed bytes: the plaintext, the transform being its own inverse. -/
theorem ctrXform_sealBytes (hn : nonce.length = 8) (ks : Schedule) (p : List Byte) :
    (ctrXform (nonceBlock (sealBytes ks nonce p)) ((sealBytes ks nonce p).drop 8) ks facadeRounds).1 = p := by
  have hblock : nonceBlock (sealBytes ks nonce p) = nonceBlock nonce := by
    rw [nonceBlock, take_sealBytes hn, nonceBlock, List.take_of_length_le hn.le]
  rw [hblock, drop_sealBytes hn, ctrXform_ctrXform]

theorem b64Encode_injective : Function.Injective b64Encode := by
  intro b c h
  exact Except.ok.inj ((b64Encode_eq_iff_b64Decode.mp h).symm.trans (b64Encode_eq_iff_b64Decode.mp rfl))

theorem sealBytes_eq_iff (hn : nonce.length = 8) (hn' : nonce'.length = 8) :
    sealBytes ks nonce p = sealBytes ks nonce' p ↔ nonce = nonce' :=
  ⟨fun h => List.append_inj_left h (hn.trans hn'.symm), fun h => h ▸ rfl⟩

/-- Settles O59: a ciphertext shows its nonce, and two under one keystream cancel it. -/
theorem nonceDecidesCiphertext : Obligations.NonceDecidesCiphertext := by
  refine ⟨makeNonce_eq, fun _ => toList_nonceBlock, fun ks x y p q => ⟨?_, fun hsec hms j hp hq => ?_⟩⟩
  · rw [b64Encode_injective.eq_iff, sealBytes_eq_iff (length_makeNonce x) (length_makeNonce y), makeNonce_eq_iff]
  · rw [makeNonce_eq_iff.mpr ⟨hsec, hms⟩, getD_sealBytes (length_makeNonce y) ks hp,
      getD_sealBytes (length_makeNonce y) ks hq, BitVec.xor_comm (q.getD j 0#8), BitVec.xor_assoc,
      ← BitVec.xor_assoc (keystreamByte ..), BitVec.xor_self, BitVec.zero_xor]

/-! ### The commands (46_facade.md R236 to R243) -/

/-- Settles O38: the ends of the pseudocode, one for each test. -/
theorem constructResult : Obligations.ConstructResult := by
  refine ⟨by decide, fun s => ⟨fun hl => ?_, fun hl => ⟨fun he => ?_, fun pb he => ?_⟩⟩⟩
  · exact exec_of_body_error (i := .pwConstruct) (constructBody_long hl)
  · exact exec_of_body_error (i := .pwConstruct) (constructBody_invalid hl (utf8Encode_of_exists_le he))
  · exact ⟨_, exec_of_body_ok (i := .pwConstruct) (constructBody_ok hl he), rfl, Memory.read_writePrefix _ _,
      toList_padTo_of_length (by simp [createPasswordDigest])⟩

/-- Settles O39: the ends of the pseudocode, one for each test, all after the sample. -/
theorem encryptResult : Obligations.EncryptResult := by
  refine ⟨by decide, fun s => ⟨fun h => ?_, fun h hl => ?_, fun h hl =>
    ⟨fun he => ?_, fun pt he => ⟨fun ho => ?_, fun ho => ?_⟩⟩⟩⟩
  · exact exec_of_body_error (i := .pwEncrypt) (encryptBody_none (s := s.takeSample) _ h)
  · exact exec_of_body_error (i := .pwEncrypt) (encryptBody_long (s := s.takeSample) _ h hl)
  · exact exec_of_body_error (i := .pwEncrypt)
      (encryptBody_invalid (s := s.takeSample) _ h hl (utf8Encode_of_exists_le he))
  · exact exec_of_body_error (i := .pwEncrypt) (encryptBody_full (s := s.takeSample) _ h hl he ho)
  · refine ⟨_, (ctrXform (nonceBlock (makeNonce s.timeSample)) pt s.pks facadeRounds).1, makeNonce s.timeSample,
      nonceBlock (makeNonce s.timeSample),
      exec_of_body_ok (i := .pwEncrypt) (encryptBody_ok (s := s.takeSample) _ h hl he ho), ?_, makeNonce_eq _,
      toList_nonceBlock (length_makeNonce _).ge, isCtrOutput_ctrXform .., emitText_read s.takeSample _⟩
    rw [State.emitText, length_b64Encode, length_sealBytes]
    rfl

/-- Settles O40: the ends of the pseudocode, one for each test. -/
theorem decryptResult : Obligations.DecryptResult := by
  refine ⟨by decide, fun s => ⟨fun h => ?_, fun h hl => ?_, fun h hl =>
    ⟨fun he => ?_, fun raw he => ⟨fun hr => ?_, fun hr =>
      ⟨_, nonceBlock raw, toList_nonceBlock hr, isCtrOutput_ctrXform .., fun hu => ?_, fun out hu => ?_⟩⟩⟩⟩⟩
  · exact exec_of_body_error (i := .pwDecrypt) (decryptBody_none h)
  · exact exec_of_body_error (i := .pwDecrypt) (decryptBody_long h hl)
  · exact exec_of_body_error (i := .pwDecrypt)
      (decryptBody_base64 h hl (eq_error_of_forall_ne_ok b64Decode_error he))
  · exact exec_of_body_error (i := .pwDecrypt) (decryptBody_short h hl he hr)
  · exact exec_of_body_error (i := .pwDecrypt)
      (decryptBody_utf8 h hl he hr (eq_error_of_forall_ne_ok utf8Decode_error hu))
  · exact ⟨_, exec_of_body_ok (i := .pwDecrypt) (decryptBody_ok h hl he hr hu), rfl, emitText_read s out⟩

theorem getD_digestText (d : Vector Byte 32) {i : Nat} (h : i < 32) :
    (d.toList.map fun b => b.setWidth 32).getD i 0#32 = (d[i]).setWidth 32 := by
  rw [List.getD_eq_getElem _ _ (by simpa using h), List.getElem_map, Vector.getElem_toList]

theorem exec_pwGetdigest (h : s.objv = true) :
    exec .pwGetdigest s = .next (s.emitText (s.digest.toList.map fun b => b.setWidth 32)).complete :=
  exec_of_body_ok (i := .pwGetdigest) (getDigestBody_ok h)

theorem exec_pwGetpassword (h : s.objv = true) :
    exec .pwGetpassword s = .next (s.emitText s.storedPassword).complete :=
  exec_of_body_ok (i := .pwGetpassword) (getPasswordBody_ok h)

@[simp] theorem length_storedPassword (s : State) : s.storedPassword.length = s.pwlen := Memory.length_readPrefix _ _

/-- Settles O41: each accessor puts its part of the object out, below its length. -/
theorem accessorsResult : Obligations.AccessorsResult := by
  refine ⟨by decide, by decide, fun s => ⟨fun h => ⟨?_, ?_⟩, fun h =>
    ⟨⟨_, exec_pwGetdigest h, ?_, fun i hi => ?_, fun i hi => ?_⟩,
      ⟨_, exec_pwGetpassword h, ?_, fun i hi => ?_, fun i hi => ?_⟩⟩⟩⟩
  · exact exec_of_body_error (i := .pwGetdigest) (getDigestBody_none h)
  · exact exec_of_body_error (i := .pwGetpassword) (getPasswordBody_none h)
  · rw [State.emitText, List.length_map, Vector.length_toList]
    rfl
  · rw [complete_tout, emitText_read, if_pos (by simpa using hi), getD_digestText]
  · rw [complete_tout, emitText_read, if_neg (by simpa using hi)]
  · rw [State.emitText, length_storedPassword]
    rfl
  · rw [complete_tout, emitText_read, if_pos (by simpa using hi), State.storedPassword, Memory.getD_readPrefix,
      if_pos hi]
  · rw [complete_tout, emitText_read, if_neg (by simpa using hi)]

/-! ### `PW.DECRYPT` undoes `PW.ENCRYPT` (46_facade.md R241 (a)) -/

/-- What was put out can be read back, where its length fits `TOUTLEN`. -/
theorem outputText_emitText {out : List Word} (h : out.length < 2 ^ 32) (s : State) :
    (s.emitText out).outputText = out := by
  have hlen : (s.emitText out).toutlen.toNat = out.length := Nat.mod_eq_of_lt h
  rw [State.outputText, hlen]
  exact Memory.readPrefix_writePrefix s.tout out

/-- The text copied back is the operand of the next command. -/
theorem readPrefix_copyTextBack (s : State) :
    s.copyTextBack.tin.readPrefix s.copyTextBack.tinlen.toNat = s.outputText := by
  have hlen : s.outputText.length = s.toutlen.toNat := Memory.length_readPrefix _ _
  have h := Memory.readPrefix_writePrefix s.tin s.outputText
  rwa [hlen] at h

/-- What stands in `TIN` is the sealed encoding of a text: `PW.DECRYPT` puts that text out. -/
theorem exec_pwDecrypt_sealed {pt : List Byte} {text : List Word} (h : s.objv = true)
    (hin : s.tin.readPrefix s.tinlen.toNat = b64Encode (sealBytes s.pks (makeNonce x) pt))
    (hroom : 4 * ((8 + pt.length + 2) / 3) ≤ s.params.bufCps) (hpt : utf8Encode text = .ok pt) :
    exec .pwDecrypt s = .next (s.emitText text).complete := by
  have hlen := congrArg List.length hin
  rw [Memory.length_readPrefix, length_b64Encode, length_sealBytes] at hlen
  refine exec_of_body_ok (i := .pwDecrypt) (decryptBody_ok h (hlen.trans_le hroom)
    (b64Encode_eq_iff_b64Decode.mp hin.symm) ?_ ?_)
  · rw [length_sealBytes]
    exact Nat.le_add_right _ _
  · rw [ctrXform_sealBytes (length_makeNonce x)]
    exact utf8DecLoop_of_utf8Encode hpt le_rfl

/-- Settles O58: `B64Dec`, the counter mode and `Utf8Dec` each undo their part of the encryption. -/
theorem decryptRestoresPlaintext : Obligations.DecryptRestoresPlaintext := by
  intro s t ⟨_, _, _, hcps⟩ h he
  obtain ⟨u, hc, rfl⟩ | ⟨f, rfl⟩ := exec_cases h
  swap
  · exact absurd he (faultCode_ne_zero f)
  cases hc with
  | @pwEncrypt pt object fits encoded room =>
    have hout : (b64Encode (sealBytes s.pks (makeNonce s.timeSample) pt)).length < 2 ^ 32 := by
      rw [length_b64Encode, length_sealBytes]
      omega
    have hin := (readPrefix_copyTextBack _).trans (outputText_emitText hout s.takeSample)
    have htext : (s.tin.readPrefix s.tinlen.toNat).length < 2 ^ 32 := by
      rw [Memory.length_readPrefix]
      exact s.tinlen.isLt
    exact ⟨_, exec_pwDecrypt_sealed object hin room encoded, rfl, outputText_emitText htext _⟩

end Sys2Proof.Machine

/-! The SHA-1 collaborator: its padding and known answers, and what the accessors give after `PW.CONSTRUCT` (O57). -/

namespace Sys2Proof.Machine

variable {s : State} {k : Nat}

/-! ### The padding (47_sha1_collaborator.md R261) -/

@[simp] theorem length_be32 (v : Word) : (be32 v).length = 4 := rfl

/-- The low word of a number, most significant byte first: counted from its end, the number's digits to the base 256. -/
theorem getD_be32_ofNat (x : Nat) (hk : k < 4) :
    (be32 (BitVec.ofNat 32 x)).getD (3 - k) 0#8 = BitVec.ofNat 8 (x / 256 ^ k) := by
  have hrev : (be32 (BitVec.ofNat 32 x)).getD (3 - k) 0#8 = (le32 (BitVec.ofNat 32 x)).getD k 0#8 := by
    interval_cases k <;> rfl
  rw [hrev, getD_le32 _ hk, BitVec.toNat_ofNat]
  refine BitVec.eq_of_toNat_eq ?_
  rw [BitVec.toNat_ofNat, BitVec.toNat_ofNat]
  interval_cases k <;> omega

/-- The tail of a padded message of `n` bytes: the bit length as two big-endian words, the high-order word first. -/
def sha1LengthField (n : Nat) : List Byte := be32 (BitVec.ofNat 32 (8 * n / 2 ^ 32)) ++ be32 (BitVec.ofNat 32 (8 * n))

@[simp] theorem length_sha1LengthField (n : Nat) : (sha1LengthField n).length = 8 := rfl

theorem getD_sha1LengthField (n : Nat) (hk : k < 8) :
    (sha1LengthField n).getD (7 - k) 0#8 = BitVec.ofNat 8 (8 * n / 256 ^ k) := by
  rcases Nat.lt_or_ge k 4 with hlow | hhigh
  · have hp : 7 - k = 4 + (3 - k) := by omega
    rw [hp, sha1LengthField, List.getD_append_right _ _ _ _ (Nat.le_add_right 4 _), length_be32,
      Nat.add_sub_cancel_left, getD_be32_ofNat _ hlow]
  · obtain ⟨i, rfl⟩ := Nat.exists_eq_add_of_le hhigh
    have hp : 7 - (4 + i) = 3 - i := by omega
    rw [hp, sha1LengthField, List.getD_append _ _ _ _ (by rw [length_be32]; omega), getD_be32_ofNat _ (by omega),
      Nat.div_div_eq_div_mul, show 256 ^ (4 + i) = 2 ^ 32 * 256 ^ i from Nat.pow_add 256 4 i]

theorem sha1Pad_eq (m : List Byte) : sha1Pad m = blockPad m (sha1LengthField m.length) := by
  simp [sha1Pad, blockPad, sha1LengthField]

/-- Counted from its end, the padded message begins with the digits of the bit length. -/
theorem getD_sha1Pad_lengthField (m : List Byte) (hk : k < 8) :
    (sha1Pad m).getD ((sha1Pad m).length - 1 - k) 0#8 = BitVec.ofNat 8 (8 * m.length / 256 ^ k) := by
  have htail := length_sha1LengthField m.length
  have hp (p : Nat) (h : 8 ≤ p) : p - 1 - k = p - 8 + (7 - k) := by omega
  rw [sha1Pad_eq, hp _ (by rw [length_blockPad htail]; omega), getD_blockPad_tail htail, getD_sha1LengthField _ hk]

/-! ### The digest (46_facade.md R233) -/

theorem isHexOf_hexBytes (b : List Byte) : IsHexOf b (hexBytes b) := by
  refine ⟨length_hexBytes b, fun i hi => ?_⟩
  obtain ⟨hhigh, hlow⟩ := getD_hexEncode hi
  have hbyte (j : Nat) : (hexBytes b).getD j 0#8 = ((hexEncode b).getD j 0#32).setWidth 8 :=
    List.getD_map (hexEncode b) 0#32 fun c => c.setWidth 8
  rw [hbyte, hbyte, hhigh, hlow]
  exact ⟨rfl, rfl⟩

@[simp] theorem length_createPasswordDigest (u : Sha1Unit) (pb : List Byte) : (createPasswordDigest u pb).length = 32 :=
  length_hexBytes _

/-- A hexadecimal character survives the widening to a code point, and is ASCII. -/
theorem isHexByte_setWidth {b : Byte} (hb : isHexByte b) :
    isHexByte ((b.setWidth 32).setWidth 8) ∧ (b.setWidth 32).toNat < 0x80 := by
  have hback : (b.setWidth 32).setWidth 8 = b := by simp
  refine ⟨hback.symm ▸ hb, ?_⟩
  unfold isHexByte at hb
  bv_omega

/-! ### The accessors after `PW.CONSTRUCT` (46_facade.md R236, R242, R243) -/

/-- The state after a `PW.CONSTRUCT` that completes with the password bytes `pb`. -/
def State.afterConstruct (s : State) (pb : List Byte) : State :=
  { s with
    pw := s.pw.writePrefix (s.tin.readPrefix s.tinlen.toNat), pwlen := s.tinlen.toNat,
    digest := padTo 32 (createPasswordDigest s.params.sha1 pb), pks := createKeySchedule pb, objv := true,
    err := 0x00#8 }

/-- A `PW.CONSTRUCT` that leaves `ERR` at 0 had a text with UTF-8 bytes, and stored the object of them. -/
theorem eq_afterConstruct_of_err_zero {t : State} (h : exec .pwConstruct s = .next t) (he : t.err = 0x00#8) :
    ∃ pb, utf8Encode (s.tin.readPrefix s.tinlen.toNat) = .ok pb ∧ t = s.afterConstruct pb := by
  obtain ⟨u, hc, rfl⟩ | ⟨f, rfl⟩ := exec_cases h
  · cases hc with
    | pwConstruct fits encoded => exact ⟨_, encoded, rfl⟩
  · exact absurd he (faultCode_ne_zero f)

theorem storedPassword_afterConstruct (s : State) (pb : List Byte) :
    (s.afterConstruct pb).storedPassword = s.tin.readPrefix s.tinlen.toNat := by
  have h := Memory.readPrefix_writePrefix s.pw (s.tin.readPrefix s.tinlen.toNat)
  rwa [Memory.length_readPrefix] at h

theorem digest_afterConstruct (s : State) (pb : List Byte) :
    (s.afterConstruct pb).digest.toList = createPasswordDigest s.params.sha1 pb :=
  toList_padTo_of_length (length_createPasswordDigest _ pb)

theorem outputText_pwGetpassword_afterConstruct (s : State) (pb : List Byte) :
    ((s.afterConstruct pb).emitText (s.afterConstruct pb).storedPassword).outputText =
      s.tin.readPrefix s.tinlen.toNat := by
  rw [storedPassword_afterConstruct]
  refine outputText_emitText ?_ _
  rw [Memory.length_readPrefix]
  exact s.tinlen.isLt

theorem outputText_pwGetdigest_afterConstruct (s : State) (pb : List Byte) :
    ((s.afterConstruct pb).emitText ((s.afterConstruct pb).digest.toList.map fun b => b.setWidth 32)).outputText =
      (createPasswordDigest s.params.sha1 pb).map fun b => b.setWidth 32 := by
  rw [digest_afterConstruct]
  exact outputText_emitText (by simp) _

/-- Settles O57: the padding is that of whole blocks with a big-endian tail, the known answers are computed, and the
object of the constructed text holds the text and the digest of its bytes. -/
theorem accessorsReturnConstructed : Obligations.AccessorsReturnConstructed := by
  refine ⟨fun _ _ => rfl, fun _ => rfl, fun m _ => ⟨?_, ?_, ?_, ?_, fun k => getD_sha1Pad_lengthField m⟩,
    by decide +kernel, by decide +kernel, by decide +kernel, by decide +kernel, by decide +kernel,
    fun s t _ h he => ?_⟩
  · rw [sha1Pad_eq, length_blockPad_eq_blocks (length_sha1LengthField _)]
  · rw [sha1Pad_eq, take_blockPad]
  · rw [sha1Pad_eq, getD_blockPad_length]
  · rw [sha1Pad_eq]
    exact fun j => getD_blockPad_zero (length_sha1LengthField _)
  · obtain ⟨pb, hpb, rfl⟩ := eq_afterConstruct_of_err_zero h he
    have hdigest := outputText_pwGetdigest_afterConstruct s pb
    refine ⟨_, _, exec_pwGetpassword rfl, rfl, outputText_pwGetpassword_afterConstruct s pb,
      exec_pwGetdigest rfl, rfl, (congrArg List.length hdigest).trans (by simp), fun c hc => ?_, fun qb hqb => ?_⟩
    · obtain ⟨b, hb, rfl⟩ := List.mem_map.mp (hdigest ▸ hc)
      exact isHexByte_setWidth (isHexByte_of_mem_hexBytes hb)
    · obtain rfl := Except.ok.inj (hpb.symm.trans hqb)
      exact ⟨hdigest, _, _, isHexOf_hexBytes _, isHexOf_hexBytes _, isHexOf_hexBytes _⟩

end Sys2Proof.Machine

/-! Which faults a command can raise, and what a command that faults or completes leaves (O15, O16, O25). -/

namespace Sys2Proof.Machine

variable {i : Instr} {s t u : State} {f : CmdFault}

/-! ### How a command ends (60_exceptions.md R280, R282) -/

/-- Pseudocode that faults does so with a fault of the command's row in the fault matrix. -/
theorem mem_faultsOf_of_bodyOf_error (hi : i.wf = true) (h : bodyOf i s = .error f) : f ∈ faultsOf i := by
  cases i with
  | nop | md5Init | md5Block | ctrInc | clrerr | sreset => cases h
  | aesKeyexp ksz => rw [bodyOf, if_pos (show kszLegal ksz = true from hi)] at h; cases h
  | aesCipher => obtain ⟨-, e⟩ | ⟨-, e⟩ := cipherBody_cases s <;> cases e.symm.trans h; decide
  | aesInvcipher => obtain ⟨-, e⟩ | ⟨-, e⟩ := invCipherBody_cases s <;> cases e.symm.trans h; decide
  | md5Digest =>
    obtain ⟨-, e⟩ | ⟨-, -, e⟩ | ⟨-, -, e⟩ := md5DigestBody_cases s <;> cases e.symm.trans h <;> decide
  | ctrXform =>
    obtain ⟨-, e⟩ | ⟨-, -, e⟩ | ⟨-, -, e⟩ := ctrXformBody_cases s <;> cases e.symm.trans h <;> decide
  | utf8Enc =>
    obtain e | e | ⟨_, -, -, -, e⟩ := utf8EncBody_cases s <;> cases e.symm.trans h <;> decide
  | utf8Dec =>
    obtain e | e | ⟨_, -, -, -, e⟩ := utf8DecBody_cases s <;> cases e.symm.trans h <;> decide
  | b64Enc => obtain e | ⟨-, -, e⟩ := b64EncBody_cases s <;> cases e.symm.trans h; decide
  | b64Dec =>
    obtain e | e | ⟨_, -, -, -, e⟩ := b64DecBody_cases s <;> cases e.symm.trans h <;> decide
  | hexEnc => obtain e | ⟨-, -, e⟩ := hexEncBody_cases s <;> cases e.symm.trans h; decide
  | pwConstruct =>
    obtain e | e | ⟨_, -, -, e⟩ := constructBody_cases s <;> cases e.symm.trans h <;> decide
  | pwEncrypt =>
    obtain e | e | e | ⟨_, -, -, -, -, e⟩ := encryptBody_cases s.timeSample s.takeSample <;>
      cases e.symm.trans h <;> decide
  | pwDecrypt =>
    obtain e | e | e | e | ⟨_, _, -, -, -, -, -, e⟩ := decryptBody_cases s <;>
      cases e.symm.trans h <;> decide
  | pwGetdigest => obtain ⟨-, e⟩ | ⟨-, e⟩ := getDigestBody_cases s <;> cases e.symm.trans h; decide
  | pwGetpassword => obtain ⟨-, e⟩ | ⟨-, e⟩ := getPasswordBody_cases s <;> cases e.symm.trans h; decide

/-- A well-formed command completes, or it raises a fault of its row in the fault matrix. -/
theorem exec_cases_of_wf (hi : i.wf = true) (h : exec i s = .next t) :
    (∃ u, Completes s i u ∧ t = u.complete) ∨ ∃ f ∈ faultsOf i, t = (startOf i s).raise f := by
  rw [exec_next_iff] at h
  obtain ⟨u, hb, hc⟩ | ⟨f, hb, hc⟩ := conclude_cases (startOf i s) (bodyOf i s)
  · exact .inl ⟨u, completes_of_bodyOf_ok hb, h.trans hc⟩
  · exact .inr ⟨f, mem_faultsOf_of_bodyOf_error hi hb, h.trans hc⟩

theorem startOf_eq_atCommand (i : Instr) (s : State) : startOf i s = s.atCommand i := by
  cases i <;> rfl

/-- `ERRF` is cleared by `CLRERR` and `SRESET`; every other command that completes keeps it (10_state.md R25). -/
theorem Completes.errf_eq (h : Completes s i u) : u.errf = if clearsErrf i then false else s.errf := by
  cases h <;> rfl

/-- Settles O15: a command completes, with `ERRF` as each end of its pseudocode leaves it, or raises one of its faults
from the state in which it began. -/
theorem faultsArePrecise : Obligations.FaultsArePrecise := by
  intro i s t hi h
  obtain ⟨u, hc, rfl⟩ | ⟨f, hf, rfl⟩ := exec_cases_of_wf hi h
  · exact .inl ⟨complete_err u, hc.errf_eq⟩
  · exact .inr ⟨f, hf, startOf_eq_atCommand i s ▸ rfl⟩

/-! ### A state for every fault (60_exceptions.md R282) -/

/-- A ciphertext whose plaintext, under the schedule of the object at reset, is a continuation byte alone. -/
def sealedMalformed : List Word := b64Encode (sealBytes State.reset.pks (List.replicate 8 0x00#8) [0x80#8])

/-- A state of the default instance in which every command of the fault's column of R282 raises the fault: no schedule
and no object, or both and an input that is too long, or one element the command cannot take. No row holds
`IllegalCommand`. -/
def faultWitness : CmdFault → State
  | .invalidInput => { State.reset with binlen := 0x20000000#32 }
  | .invalidCharacterCode => { State.reset with objv := true, tin := [(0, 0x110000#32)], tinlen := 1#32 }
  | .invalidUtf8Sequence =>
    { State.reset with
      objv := true, bin := [(0, 0x80#8)], binlen := 1#32,
      tin := Memory.writePrefix [] sealedMalformed, tinlen := 12#32 }
  | .decodeFailure => { State.reset with objv := true, tinlen := 1#32 }
  | .illegalCommand | .noSchedule | .noObject => State.reset
  | .bufferOverflow => { State.reset with ksv := true, objv := true, binlen := 4097#32, tinlen := 4097#32 }

theorem legal_faultWitness (f : CmdFault) : (faultWitness f).params.Legal := by
  cases f <;> decide

theorem utf8Encode_tin_faultWitness :
    utf8Encode ((faultWitness .invalidCharacterCode).tin.readPrefix 1) = .error .invalidCharacterCode :=
  utf8Encode_cons_error rfl

theorem b64Decode_tin_faultWitness_decodeFailure :
    b64Decode ((faultWitness .decodeFailure).tin.readPrefix 1) = .error .decodeFailure := rfl

theorem b64Decode_tin_faultWitness_invalidUtf8Sequence :
    b64Decode ((faultWitness .invalidUtf8Sequence).tin.readPrefix 12) =
      .ok (sealBytes State.reset.pks (List.replicate 8 0x00#8) [0x80#8]) :=
  b64Encode_eq_iff_b64Decode.mp (Memory.readPrefix_writePrefix [] sealedMalformed).symm

theorem utf8Decode_continuation : utf8Decode [0x80#8] = .error .invalidUtf8Sequence := by decide

/-- The plaintext of the sealed bytes is the malformed one they were made from, so no cipher has to be evaluated. -/
theorem decryptBody_faultWitness_invalidUtf8Sequence :
    decryptBody (faultWitness .invalidUtf8Sequence) = .error .invalidUtf8Sequence := by
  refine decryptBody_utf8 rfl (by decide) b64Decode_tin_faultWitness_invalidUtf8Sequence ?_ ?_
  · exact Nat.le_add_right _ _
  · exact (congrArg utf8Decode (ctrXform_sealBytes rfl _ _)).trans utf8Decode_continuation

/-- Every mark of the fault matrix is met. -/
theorem bodyOf_faultWitness (h : f ∈ faultsOf i) : bodyOf i (faultWitness f) = .error f := by
  cases i with
  | nop | aesKeyexp | md5Init | md5Block | ctrInc | clrerr | sreset => exact absurd h List.not_mem_nil
  | aesCipher => obtain rfl := List.mem_singleton.mp h; exact cipherBody_none rfl
  | aesInvcipher => obtain rfl := List.mem_singleton.mp h; exact invCipherBody_none rfl
  | md5Digest =>
    obtain rfl | rfl := List.mem_pair.mp h
    · exact md5DigestBody_invalid (by decide)
    · exact md5DigestBody_long (by decide) (by decide)
  | ctrXform =>
    obtain rfl | rfl := List.mem_pair.mp h
    · exact ctrXformBody_none rfl
    · exact ctrXformBody_long rfl (by decide)
  | utf8Enc =>
    obtain rfl | rfl := List.mem_pair.mp h
    · exact utf8EncBody_invalid (by decide) utf8Encode_tin_faultWitness
    · exact utf8EncBody_long (by decide)
  | utf8Dec =>
    obtain rfl | rfl := List.mem_pair.mp h
    · exact utf8DecBody_invalid (by decide) utf8Decode_continuation
    · exact utf8DecBody_long (by decide)
  | b64Enc => obtain rfl := List.mem_singleton.mp h; exact b64EncBody_long (by decide)
  | b64Dec =>
    obtain rfl | rfl := List.mem_pair.mp h
    · exact b64DecBody_invalid (by decide) b64Decode_tin_faultWitness_decodeFailure
    · exact b64DecBody_long (by decide)
  | hexEnc => obtain rfl := List.mem_singleton.mp h; exact hexEncBody_long (by decide)
  | pwConstruct =>
    obtain rfl | rfl := List.mem_pair.mp h
    · exact constructBody_invalid (by decide) utf8Encode_tin_faultWitness
    · exact constructBody_long (by decide)
  | pwEncrypt =>
    obtain rfl | rfl | rfl : f = .invalidCharacterCode ∨ f = .noObject ∨ f = .bufferOverflow := by
      simpa [faultsOf] using h
    · exact encryptBody_invalid _ rfl (by decide) utf8Encode_tin_faultWitness
    · exact encryptBody_none _ rfl
    · exact encryptBody_long _ rfl (by decide)
  | pwDecrypt =>
    obtain rfl | rfl | rfl | rfl :
        f = .invalidUtf8Sequence ∨ f = .decodeFailure ∨ f = .noObject ∨ f = .bufferOverflow := by
      simpa [faultsOf] using h
    · exact decryptBody_faultWitness_invalidUtf8Sequence
    · exact decryptBody_base64 rfl (by decide) b64Decode_tin_faultWitness_decodeFailure
    · exact decryptBody_none rfl
    · exact decryptBody_long rfl (by decide)
  | pwGetdigest => obtain rfl := List.mem_singleton.mp h; exact getDigestBody_none rfl
  | pwGetpassword => obtain rfl := List.mem_singleton.mp h; exact getPasswordBody_none rfl

/-- Settles O16: every mark of the matrix has its state, and a code in `ERR` is that of a fault in the command's row. -/
theorem faultMatrixIsExact : Obligations.FaultMatrixIsExact := by
  intro i f hi
  constructor
  · intro hf
    exact ⟨faultWitness f, _, legal_faultWitness f, exec_of_body_error (bodyOf_faultWitness hf), raise_err _ f⟩
  · rintro ⟨s, t, -, h, he⟩
    obtain ⟨u, -, rfl⟩ | ⟨g, hg, rfl⟩ := exec_cases_of_wf hi h
    · exact absurd he.symm (faultCode_ne_zero f)
    · exact faultCode_injective g f he ▸ hg

/-! ### Housekeeping (60_exceptions.md R284, R285) -/

theorem exec_nop (s : State) : exec .nop s = .next s.complete := exec_of_body_ok (i := .nop) rfl

theorem exec_clrerr (s : State) : exec .clrerr s = .next s.clearFault.complete := exec_of_body_ok (i := .clrerr) rfl

/-- Settles O25, from the two commands' pseudocode. -/
theorem nopAndClrerrResult : Obligations.NopAndClrerrResult :=
  ⟨by decide, by decide, fun s => ⟨exec_nop s, exec_clrerr s⟩⟩

end Sys2Proof.Machine

/-! The lifetime of the schedule (O14), and what the two resets leave (O20, O26). -/

namespace Sys2Proof.Machine

variable {s : State}

/-! ### A write to `KEY` (70_reset_and_hazards.md R310) -/

/-- `KEY` is the first byte row, so no capacity, legal or not, hides an element of it (20_memory.md R62, R68). -/
theorem locateByte_key (p : Params) {a : Offset} {i : Nat} (hi : i < 32) (ha : a.toNat = 0x00040 + i) :
    locateByte p a = some (⟨.key, 0x00040, 32, true⟩, i) := by
  have holds : rowHolds 1 a.toNat (⟨.key, 0x00040, 32, true⟩ : MapRow ByteArr) = true := by
    simp [rowHolds, ha, hi, Nat.mod_one]
  rw [locateByte, locate, byteRows, List.find?_cons_of_pos holds, Option.map_some, ha, Nat.add_sub_cancel_left,
    Nat.div_one]

/-- The step of a byte write to a writable location stores the byte, with the side effect of its row, and answers. -/
theorem step_writeByte_some {a : Offset} {v : Byte} {rest : List HostEvent} {r : MapRow ByteArr} {i : Nat}
    (hs : s.events = .writeByte a v :: rest) (hl : locateByte s.params a = some (r, i)) (hw : r.writable = true) :
    step s = .next ((State.putByte { s with events := rest } r.array i v).respond .written) := by
  rw [step_event hs, serve_writeByte, hostWriteByte_some (s := { s with events := rest }) hl hw]

/-- Without a valid schedule each command that needs one faults (60_exceptions.md R278). -/
theorem exec_scheduleUser_none (h : s.ksv = false) :
    ∀ i ∈ [Instr.aesCipher, .aesInvcipher, .ctrXform], exec i s = .next (s.raise .noSchedule) := by
  simp only [List.forall_mem_cons, List.not_mem_nil, false_imp_iff, implies_true, and_true]
  exact ⟨exec_aesCipher_none h, exec_aesInvcipher_none h, exec_ctrXform_none h⟩

/-- Settles O14: the byte stored in `KEY` ends the schedule, and without one the three commands fault. -/
theorem keyWriteEndsSchedule : Obligations.KeyWriteEndsSchedule := by
  intro s a v rest i hi hs ha
  refine ⟨_, step_writeByte_some hs (locateByte_key s.params hi ha) rfl, ?_, rfl, rfl, rfl, rfl, ?_⟩
  · exact Vector.getElem_setIfInBounds_self hi
  · exact exec_scheduleUser_none rfl

/-! ### Hardware reset and `SRESET` (70_reset_and_hazards.md R300, R302) -/

/-- Settles O20: the event is served as a reset, built from `State.reset` and the model's own fields. -/
theorem hardwareResetForgetsState : Obligations.HardwareResetForgetsState :=
  fun s rest hs => (step_event hs).trans (serve_hwReset { s with events := rest })

theorem exec_sreset (s : State) : exec .sreset s = .next (State.complete { s.hardReset with cmd := s.cmd }) :=
  exec_of_body_ok (i := .sreset) rfl

/-- Settles O26: `ERR` is zero in the reset state, so the completion of the command changes nothing. -/
theorem sresetResult : Obligations.SresetResult := ⟨by decide, exec_sreset⟩

end Sys2Proof.Machine
